-- ==== Sys2Proof/Word.lean ====
section
/-! DEFINITION. The machine's words: bytes, nibbles, addresses and instruction words
(spec/00_scope.md R8, R13, spec/30_encoding.md R82). All values are unsigned. -/

namespace Sys2Proof

/-- One byte: a general register, a timer, a memory cell (R20, R28, R29, R30). -/
abbrev Byte := BitVec 8

/-- One nibble: a field of an instruction word (R82). -/
abbrev Nib := BitVec 4

/-- The 12-bit field `nnn` (R82). -/
abbrev Addr12 := BitVec 12

/-- A 16-bit address register: `pc`, `I` and a stack entry are `ADDR_W` = 16 bits wide
(R7, R23, R27, R32). -/
abbrev Addr := BitVec 16

/-- An instruction word `w = b0 ++ b1` (R80, R81). -/
abbrev Word16 := BitVec 16

end Sys2Proof
end

