-- ==== Sys2Proof/Syntax.lean ====
section
/-! DEFINITION. The instructions, one constructor per row of spec/opcode_table.json in the table's
(dispatch) order; mnemonics are those of spec/30_encoding.md R92. A field that a handler ignores
(R94) is kept, so that every instruction word has exactly one term. -/

namespace Sys2Proof

/-- The index of a general register, from a 4-bit field (R20, R82). -/
abbrev RegIx := Nib

inductive Instr where
  /-- `00E0` clear the framebuffer (R171). -/
  | cls
  /-- `00EE` return from subroutine (R120). -/
  | ret
  /-- `0nnn` call subroutine (R121). -/
  | call (nnn : Addr12)
  /-- `1nnn` jump (R122). -/
  | jp (nnn : Addr12)
  /-- `6xnn` load immediate (R141). -/
  | ldi (x : RegIx) (nn : Byte)
  /-- `7xnn` add immediate (R142). -/
  | addi (x : RegIx) (nn : Byte)
  /-- `3xnn` skip if equal to immediate (R124). -/
  | seqi (x : RegIx) (nn : Byte)
  /-- `4xnn` skip if not equal to immediate (R125). -/
  | snei (x : RegIx) (nn : Byte)
  /-- `5xy0` skip if registers equal (R126). -/
  | seq (x y : RegIx)
  /-- `9xy0` skip if registers differ (R127). -/
  | sne (x y : RegIx)
  /-- `8xy0` copy register (R143). -/
  | mov (x y : RegIx)
  /-- `8xy1` bitwise OR (R144). -/
  | or (x y : RegIx)
  /-- `8xy2` bitwise AND (R145). -/
  | and (x y : RegIx)
  /-- `8xy3` bitwise exclusive OR (R146). -/
  | xor (x y : RegIx)
  /-- `8xy4` add with carry out (R148). -/
  | add (x y : RegIx)
  /-- `8xy5` subtract (R149). -/
  | sub (x y : RegIx)
  /-- `8xy7` subtract reversed, result to `V[y]` (R150). -/
  | subr (x y : RegIx)
  /-- `8xy6` shift right by one; `y` is ignored (R151, R94). -/
  | shr (x y : RegIx)
  /-- `8xyE` shift left by one; `y` is ignored (R152, R94). -/
  | shl (x y : RegIx)
  /-- `Annn` set index register (R160). -/
  | seti (nnn : Addr12)
  /-- `Bnnn` jump relative to the instruction's own address (R123). -/
  | jprel (nnn : Addr12)
  /-- `Cxnn` masked random byte (R153). -/
  | rnd (x : RegIx) (nn : Byte)
  /-- `Dxyn` draw an `n`-row sprite (R172). -/
  | drw (x y : RegIx) (n : Nib)
  /-- `Ex9E` skip if key pressed, a stub; `x` is ignored (R184, R94). -/
  | skp (x : RegIx)
  /-- `ExA1` skip if key not pressed, a stub; `x` is ignored (R185, R94). -/
  | sknp (x : RegIx)
  /-- `Fx07` read delay timer (R180). -/
  | gdt (x : RegIx)
  /-- `Fx15` write delay timer (R182). -/
  | sdt (x : RegIx)
  /-- `Fx18` write sound timer (R183). -/
  | sst (x : RegIx)
  /-- `Fx1E` add register to index (R161). -/
  | iadd (x : RegIx)
  /-- `Fx0A` wait for key, a stub; `x` is ignored (R186, R94). -/
  | wkey (x : RegIx)
  /-- `Fx29` index from register (R162). -/
  | font (x : RegIx)
  /-- `Fx33` store decimal digits (R163). -/
  | bcd (x : RegIx)
  /-- `Fx55` store `V[0]` to `V[x]` (R165). -/
  | stm (x : RegIx)
  /-- `Fx65` load all 16 registers; `x` is ignored (R166, R94). -/
  | ldm (x : RegIx)
  /-- Any word matching no row above, with its four nibbles, which the log event names (R104, R44). -/
  | unrecognised (first x y n : Nib)
  deriving DecidableEq, Repr

end Sys2Proof
end

