-- ==== Sys2Proof/WellFormed.lean ====
section
/-! DEFINITION. Which terms of Instr stand for an instruction word: `CALL 0x0E0` and `CALL 0x0EE`
cannot be encoded (spec/30_encoding.md R95), and an unrecognised word is one of the list of R89. -/

namespace Sys2Proof

/-- The unrecognised words, class by class, as R89 lists them (the field `x` never matters). -/
def unrecognisedNibs (first y n : Nib) : Bool :=
  first == 0x2 ||
  (first == 0x5 && n != 0) ||
  (first == 0x8 && [0x8#4, 0x9, 0xA, 0xB, 0xC, 0xD, 0xF].contains n) ||
  (first == 0x9 && n != 0) ||
  (first == 0xE && !([(0x9#4, 0xE#4), (0xA, 0x1)].contains (y, n))) ||
  (first == 0xF &&
    !([(0x0#4, 0x7#4), (0x0, 0xA), (0x1, 0x5), (0x1, 0x8), (0x1, 0xE), (0x2, 0x9), (0x3, 0x3),
       (0x5, 0x5), (0x6, 0x5)].contains (y, n)))

/-- An instruction is well formed when some instruction word stands for it (R89, R95). -/
def Instr.wf : Instr → Bool
  | .cls | .ret => true
  | .call nnn => nnn != 0x0E0 && nnn != 0x0EE
  | .jp _ | .seti _ | .jprel _ => true
  | .ldi _ _ | .addi _ _ | .seqi _ _ | .snei _ _ | .rnd _ _ => true
  | .seq _ _ | .sne _ _ | .mov _ _ | .or _ _ | .and _ _ | .xor _ _ => true
  | .add _ _ | .sub _ _ | .subr _ _ | .shr _ _ | .shl _ _ => true
  | .drw _ _ _ => true
  | .skp _ | .sknp _ | .gdt _ | .sdt _ | .sst _ | .iadd _ | .wkey _ => true
  | .font _ | .bcd _ | .stm _ | .ldm _ => true
  | .unrecognised first _ y n => unrecognisedNibs first y n

end Sys2Proof
end

