-- ==== Sys2Proof/Decode.lean ====
section
/-! DEFINITION. The instruction decoder (spec/30_encoding.md R82), the opcode map as a list of
patterns tried in order (R86, R87, R103), and the encoder (R81, R84, R92). -/

namespace Sys2Proof

/-! ## Fields of words (R8, R81, R82) -/

/-- "Two nibbles compose one byte" (R13); the left one is the more significant (R8). -/
def joinNibs (h l : Nib) : Byte := h ++ l

/-- Three nibbles compose the 12-bit field `nnn` (R82). -/
def join3 (x y n : Nib) : Addr12 := x ++ y ++ n

/-- The instruction word of two bytes, `b0` the more significant (R56, R81). -/
def wordOf (b0 b1 : Byte) : Word16 := b0 ++ b1

/-- `v[7:4]` of a byte. -/
def hiNib (b : Byte) : Nib := (b >>> 4).setWidth 4

/-- `v[3:0]` of a byte. -/
def loNib (b : Byte) : Nib := b.setWidth 4

/-- The first (high-order) byte of an instruction word (R81). -/
def hiByte (w : Word16) : Byte := (w >>> 8).setWidth 8

/-- The second (low-order) byte of an instruction word (R81). -/
def loByte (w : Word16) : Byte := w.setWidth 8

/-! ## The decoder -/

/-- The record the decoder makes of two bytes (R82). -/
structure Decoded where
  first : Nib
  x : Nib
  y : Nib
  n : Nib
  nn : Byte
  nnn : Addr12
  deriving DecidableEq, Repr

/-- The decoder's contract: pure and total; all six fields are computed for every word (R82, R102). -/
def decodeFields (b0 b1 : Byte) : Decoded where
  first := hiNib b0
  x := loNib b0
  y := hiNib b1
  n := loNib b1
  nn := joinNibs (hiNib b1) (loNib b1)
  nnn := join3 (loNib b0) (hiNib b1) (loNib b1)

/-- An opcode pattern: four hexadecimal digits; `none` is a digit the pattern leaves open
("fields not mentioned are wildcards", R86). -/
structure Pattern where
  first : Nib
  x : Option Nib
  y : Option Nib
  n : Option Nib
  deriving DecidableEq, Repr

/-- A digit of a pattern accepts a nibble. -/
def digitAccepts (p : Option Nib) (v : Nib) : Bool := p == none || p == some v

/-- A pattern accepts a decoded record (R103). -/
def Pattern.accepts (p : Pattern) (d : Decoded) : Bool :=
  p.first == d.first && digitAccepts p.x d.x && digitAccepts p.y d.y && digitAccepts p.n d.n

/-- A pattern that fixes the class only: formats `A`, `XI`, `XYN` (R84). -/
def patClass (first : Nib) : Pattern := ⟨first, none, none, none⟩

/-- A pattern that fixes the class and `n`: format `XY` (R84). -/
def patXY (first n : Nib) : Pattern := ⟨first, none, none, some n⟩

/-- A pattern that fixes the class and `nn`: format `XF` (R84). -/
def patXF (first y n : Nib) : Pattern := ⟨first, none, some y, some n⟩

/-- One row of the opcode map: a pattern and the instruction it selects. -/
structure Row where
  pat : Pattern
  make : Decoded → Instr

/-- Rows 1 to 10 (R86). -/
def rowsControl : List Row :=
  [⟨⟨0x0, some 0x0, some 0xE, some 0x0⟩, fun _ => .cls⟩,
   ⟨⟨0x0, some 0x0, some 0xE, some 0xE⟩, fun _ => .ret⟩,
   ⟨patClass 0x0, fun d => .call d.nnn⟩,
   ⟨patClass 0x1, fun d => .jp d.nnn⟩,
   ⟨patClass 0x6, fun d => .ldi d.x d.nn⟩,
   ⟨patClass 0x7, fun d => .addi d.x d.nn⟩,
   ⟨patClass 0x3, fun d => .seqi d.x d.nn⟩,
   ⟨patClass 0x4, fun d => .snei d.x d.nn⟩,
   ⟨patXY 0x5 0x0, fun d => .seq d.x d.y⟩,
   ⟨patXY 0x9 0x0, fun d => .sne d.x d.y⟩]

/-- Rows 11 to 19 (R86). -/
def rowsAlu : List Row :=
  [⟨patXY 0x8 0x0, fun d => .mov d.x d.y⟩,
   ⟨patXY 0x8 0x1, fun d => .or d.x d.y⟩,
   ⟨patXY 0x8 0x2, fun d => .and d.x d.y⟩,
   ⟨patXY 0x8 0x3, fun d => .xor d.x d.y⟩,
   ⟨patXY 0x8 0x4, fun d => .add d.x d.y⟩,
   ⟨patXY 0x8 0x5, fun d => .sub d.x d.y⟩,
   ⟨patXY 0x8 0x7, fun d => .subr d.x d.y⟩,
   ⟨patXY 0x8 0x6, fun d => .shr d.x d.y⟩,
   ⟨patXY 0x8 0xE, fun d => .shl d.x d.y⟩]

/-- Rows 20 to 25 (R86). -/
def rowsDraw : List Row :=
  [⟨patClass 0xA, fun d => .seti d.nnn⟩,
   ⟨patClass 0xB, fun d => .jprel d.nnn⟩,
   ⟨patClass 0xC, fun d => .rnd d.x d.nn⟩,
   ⟨patClass 0xD, fun d => .drw d.x d.y d.n⟩,
   ⟨patXF 0xE 0x9 0xE, fun d => .skp d.x⟩,
   ⟨patXF 0xE 0xA 0x1, fun d => .sknp d.x⟩]

/-- Rows 26 to 34 (R86). -/
def rowsMisc : List Row :=
  [⟨patXF 0xF 0x0 0x7, fun d => .gdt d.x⟩,
   ⟨patXF 0xF 0x1 0x5, fun d => .sdt d.x⟩,
   ⟨patXF 0xF 0x1 0x8, fun d => .sst d.x⟩,
   ⟨patXF 0xF 0x1 0xE, fun d => .iadd d.x⟩,
   ⟨patXF 0xF 0x0 0xA, fun d => .wkey d.x⟩,
   ⟨patXF 0xF 0x2 0x9, fun d => .font d.x⟩,
   ⟨patXF 0xF 0x3 0x3, fun d => .bcd d.x⟩,
   ⟨patXF 0xF 0x5 0x5, fun d => .stm d.x⟩,
   ⟨patXF 0xF 0x6 0x5, fun d => .ldm d.x⟩]

/-- The opcode map in dispatch order (R86). -/
def opcodeRows : List Row := rowsControl ++ rowsAlu ++ rowsDraw ++ rowsMisc

/-- Dispatch: the first row that accepts the record; if none does, the unrecognised pattern
(R87, R103, R104). -/
def dispatch (d : Decoded) : Instr :=
  match opcodeRows.find? (fun r => r.pat.accepts d) with
  | some r => r.make d
  | none => .unrecognised d.first d.x d.y d.n

/-- The instruction of two fetched bytes: every pair of bytes stands for one (R82, R90). -/
def decodeBytes (b0 b1 : Byte) : Instr := dispatch (decodeFields b0 b1)

/-- The instruction of a word (R81). -/
def decodeWord (w : Word16) : Instr := decodeBytes (hiByte w) (loByte w)

/-- Why a list of bytes holds no instruction. -/
inductive DecodeError where
  /-- Fewer than the two bytes every instruction has (R80); raised by `decode` only. -/
  | truncated (length : Nat)
  deriving DecidableEq, Repr

/-- Decode the first instruction of a list of bytes and give the rest back (R80). -/
def decode : List Byte → Except DecodeError (Instr × List Byte)
  | b0 :: b1 :: rest => .ok (decodeBytes b0 b1, rest)
  | [_] => .error (.truncated 1)
  | [] => .error (.truncated 0)

/-! ## The encoder -/

/-- Format `A`: class and `nnn` (R84). -/
def formA (first : Nib) (nnn : Addr12) : Word16 := first ++ nnn

/-- Format `XI`: class, `x` and `nn` (R84). -/
def formXI (first x : Nib) (nn : Byte) : Word16 := first ++ x ++ nn

/-- Four nibbles `first x y n`: formats `XY` and `XYN` (R81, R84). -/
def formXYN (first x y n : Nib) : Word16 := wordOf (joinNibs first x) (joinNibs y n)

/-- The word of an instruction, from the encodings of R84, R86 and R92. An ignored field is encoded
as the term carries it (R94). -/
def encode : Instr → Word16
  | .cls => 0x00E0
  | .ret => 0x00EE
  | .call nnn => formA 0x0 nnn
  | .jp nnn => formA 0x1 nnn
  | .ldi x nn => formXI 0x6 x nn
  | .addi x nn => formXI 0x7 x nn
  | .seqi x nn => formXI 0x3 x nn
  | .snei x nn => formXI 0x4 x nn
  | .seq x y => formXYN 0x5 x y 0x0
  | .sne x y => formXYN 0x9 x y 0x0
  | .mov x y => formXYN 0x8 x y 0x0
  | .or x y => formXYN 0x8 x y 0x1
  | .and x y => formXYN 0x8 x y 0x2
  | .xor x y => formXYN 0x8 x y 0x3
  | .add x y => formXYN 0x8 x y 0x4
  | .sub x y => formXYN 0x8 x y 0x5
  | .subr x y => formXYN 0x8 x y 0x7
  | .shr x y => formXYN 0x8 x y 0x6
  | .shl x y => formXYN 0x8 x y 0xE
  | .seti nnn => formA 0xA nnn
  | .jprel nnn => formA 0xB nnn
  | .rnd x nn => formXI 0xC x nn
  | .drw x y n => formXYN 0xD x y n
  | .skp x => formXI 0xE x 0x9E
  | .sknp x => formXI 0xE x 0xA1
  | .gdt x => formXI 0xF x 0x07
  | .sdt x => formXI 0xF x 0x15
  | .sst x => formXI 0xF x 0x18
  | .iadd x => formXI 0xF x 0x1E
  | .wkey x => formXI 0xF x 0x0A
  | .font x => formXI 0xF x 0x29
  | .bcd x => formXI 0xF x 0x33
  | .stm x => formXI 0xF x 0x55
  | .ldm x => formXI 0xF x 0x65
  | .unrecognised first x y n => formXYN first x y n

/-- The two bytes of an instruction, high byte first (R56, R92). -/
def encodeBytes (i : Instr) : List Byte := [hiByte (encode i), loByte (encode i)]

/-- The instruction the decoder reads from a word numbered as spec/opcode_table.json numbers it: one
16-bit word, bit 0 its least significant bit, stored high byte first (R56, R88); bits above
`nbits` are 0. -/
def decodeTableWord (nbits w : Nat) : Option Instr :=
  let word : Word16 := BitVec.ofNat 16 (w % 2 ^ nbits)
  match decode [hiByte word, loByte word] with
  | .ok (i, _) => some i
  | .error _ => none

end Sys2Proof
end

