-- ==== Sys2Proof/Config.lean ====
section
/-! DEFINITION. What is fixed before reset (spec/00_scope.md R6, R7) and the two free values of this
machine: the random source and the host's answer to the pump (spec/10_state.md R42, R43). -/

namespace Sys2Proof

/-- `MEM_SIZE` (R6). -/
def Config.memSize : Nat := 4096

/-- The highest memory address (R30). -/
def Config.lastAddr : Nat := 4095

/-- `PC_RESET` (R6, R234). -/
def Config.pcReset : Addr := 0x200

/-- `ROM_BASE` (R6). -/
def Config.romBase : Nat := 512

/-- `ROM_MAX` (R6, R71). -/
def Config.romMax : Nat := 3584

/-- `FONT_LEN` (R6): the glyph table is at addresses 0 to 79. -/
def Config.fontLen : Nat := 80

/-- The value the spec takes for the parameter `FLAG`, the index of the flag register (R7, R21,
decision D1): the one `State.reset` has. DESIGN CHOICE of the spec, log entry 1: unsafe. -/
def Config.flag : Nib := 15

/-- The default glyphs of the digits 0 to 7, five bytes each, top row first (R31). PRESUMED, log
entry 2 (the spec's G1: general knowledge, not in the source): unsafe. -/
def Config.fontLow : List Byte :=
  [0xF0, 0x90, 0x90, 0x90, 0xF0] ++ [0x20, 0x60, 0x20, 0x20, 0x70] ++
  [0xF0, 0x10, 0xF0, 0x80, 0xF0] ++ [0xF0, 0x10, 0xF0, 0x10, 0xF0] ++
  [0x90, 0x90, 0xF0, 0x10, 0x10] ++ [0xF0, 0x80, 0xF0, 0x10, 0xF0] ++
  [0xF0, 0x80, 0xF0, 0x90, 0xF0] ++ [0xF0, 0x10, 0x20, 0x40, 0x40]

/-- The default glyphs of the digits 8 to F (R31). PRESUMED, log entry 2: unsafe. -/
def Config.fontHigh : List Byte :=
  [0xF0, 0x90, 0xF0, 0x90, 0xF0] ++ [0xF0, 0x90, 0xF0, 0x10, 0xF0] ++
  [0xF0, 0x90, 0xF0, 0x90, 0x90] ++ [0xE0, 0x90, 0xE0, 0x90, 0xE0] ++
  [0xF0, 0x80, 0x80, 0x80, 0xF0] ++ [0xE0, 0x90, 0x90, 0x90, 0xE0] ++
  [0xF0, 0x80, 0xF0, 0x80, 0xF0] ++ [0xF0, 0x80, 0xF0, 0x80, 0x80]

/-- The default `FONT`, 80 bytes (R31). -/
def Config.font : List Byte := Config.fontLow ++ Config.fontHigh

/-- FREE VALUE (R42, decision D17; treatment U8): the byte the random source returns at its `k`-th
call when nothing is queued in State. No body that a proof can see: every claim holds for every
answer. Log entry 3: safe. -/
opaque Config.randomByte : Nat → Byte

/-- FREE VALUE (R43, decision D19; treatment U9): the host's answer to the `k`-th pump when nothing
is queued in State; `true` means the surface is still open. Log entry 4: safe. -/
opaque Config.sinkOpen : Nat → Bool

end Sys2Proof
end

