-- ==== Sys2Proof/Machine/State.lean ====
section
/-! DEFINITION. The state of the machine (spec/10_state.md R20 to R47), the reasons a step can end
without a next state, and the state after reset (R46, R230). -/

namespace Sys2Proof.Machine

/-- The 4096-byte memory (R30), as the cells that differ from what an unlisted address reads as
(`Memory.unlisted`), addresses strictly rising. -/
abbrev Memory := List Host.Cell

/-- The framebuffer, row-major: 32 rows of 64 pixels, `true` is a set pixel (R33). -/
abbrev Framebuffer := Vector (Vector Bool 64) 32

/-- The framebuffer with every pixel unset (R33, R171). -/
def Framebuffer.clear : Framebuffer := Vector.replicate 32 (Vector.replicate 64 false)

/-- The causes of a fatal fault (R201). -/
inductive Cause where
  /-- Code 1 (R202). -/
  | emptyStackReturn
  /-- Code 2 (R203). -/
  | addressOutOfRange
  /-- Code 3, with a finite `STACK_DEPTH` only (R205). -/
  | stackOverflow
  deriving DecidableEq, Repr

/-- The run status (R36). -/
inductive RunStatus where
  | running
  | stopped
  | faulted (cause : Cause)
  deriving DecidableEq, Repr

/-- The fault record (R37, R201). -/
structure FaultRecord where
  cause : Cause
  faultPc : Addr
  faultAddr : Nat
  deriving DecidableEq, Repr

/-- The event logged for an unrecognised word (R44, R104). -/
structure LogEvent where
  first : Nib
  x : Nib
  y : Nib
  n : Nib
  deriving DecidableEq, Repr

/-- The machine's state. The first ten fields are the spec's (R47); `flag` and `stackDepth` are the
spec's parameters, carried here as data that no step changes; the rest is the model's own: what the block
has put out (`log`, `shown`) and the inputs of steps to come (the queues and their counters). -/
structure State where
  /-- The 16 general registers (R20). -/
  V : Vector Byte 16
  /-- The program counter (R23). -/
  pc : Addr
  /-- The index register (R27). -/
  I : Addr
  /-- The delay timer (R28). -/
  DT : Byte
  /-- The sound timer (R29). -/
  ST : Byte
  /-- Memory (R30). -/
  memory : Memory
  /-- The return stack, the most recently pushed entry last (R32, R9). -/
  stack : List Addr
  /-- The framebuffer (R33). -/
  fb : Framebuffer
  /-- The run status (R36). -/
  status : RunStatus
  /-- The fault record, empty until a fault (R37). -/
  faultRecord : Option FaultRecord
  /-- `FLAG`, the index of the flag register (R7, R21, R230). Log entry 1. -/
  flag : RegIx
  /-- `STACK_DEPTH`; `none` is the unbounded stack (R7, R32). Log entry 5. -/
  stackDepth : Option Nat
  /-- The log events so far, oldest first (R44). Log entry 6. -/
  log : List LogEvent
  /-- The framebuffer the host was shown at the last pump, if any (R40, R106). Log entry 7. -/
  shown : Option Framebuffer
  /-- Bytes the random source is to return next, first one first; when there is none the byte is
  `Config.randomByte` (R42). Log entry 3. -/
  randomQueue : List Byte
  /-- How often the random source was called (R42). Log entry 3. -/
  randomCount : Nat
  /-- Answers the host is to give next, first one first; when there is none the answer is
  `Config.sinkOpen` (R43). Log entry 4. -/
  pumpQueue : List Bool
  /-- How often the pump was called (R43). Log entry 4. -/
  pumpCount : Nat
  deriving DecidableEq, Repr

/-- The reasons `step` answers no next state: the machine has no step (R36, R100). A fatal fault
itself (R204) is no such reason: it is a next state whose status is `faulted`. -/
inductive Fault where
  /-- Raised by `step` only, in a machine whose run has stopped (R36, R107). Safe. -/
  | machineStopped
  /-- Raised by `step` only, in a machine that a fatal fault has stopped (R36, R210). Safe. -/
  | machineFaulted (cause : Cause)
  deriving DecidableEq, Repr

/-- The refusals. -/
inductive Refusal where
  /-- Raised by no arm of `exec`: every instruction has its meaning. Safe. -/
  | notModelled (mnemonic : String)
  /-- Raised by `construct` only: a ROM longer than 3584 bytes, for which there is no machine
  (R71, R222, decision D9; log entry 24). Safe. -/
  | romTooLong (length : Nat)
  deriving DecidableEq, Repr

/-- The machine right after reset (R46, R230) with the default `FONT`, an empty `ROM`, `FLAG` = 15
and an unbounded stack. Log entries 1, 2, 5, 8 and 9 name the values that are choices. -/
def State.reset : State where
  V := Vector.replicate 16 0
  pc := Config.pcReset
  I := 0
  DT := 0
  ST := 0
  memory := []
  stack := []
  fb := Framebuffer.clear
  status := .running
  faultRecord := none
  flag := Config.flag
  stackDepth := none
  log := []
  shown := none
  randomQueue := []
  randomCount := 0
  pumpQueue := []
  pumpCount := 0

end Sys2Proof.Machine
end

