-- ==== Sys2Proof/Machine/Ops.lean ====
section
/-! DEFINITION. The named operations over memory, registers, stack, framebuffer, the two inputs and
the run status, which every instruction's meaning is written with. -/

namespace Sys2Proof.Machine

/-- What an instruction or a step answers. -/
abbrev Out := Host.Outcome State Fault Refusal

/-! ## Memory (spec/20_memory.md) -/

/-- What an address that memory does not list reads as: the reset contents, that is the glyph table
at 0 to 79 and zero elsewhere (R30). -/
def Memory.unlisted (a : Nat) : Byte := Config.font.getD a 0

/-- `memory[a]` (R53). -/
def Memory.read : Memory → Nat → Byte
  | [], a => Memory.unlisted a
  | (b, w) :: m, a => if a = b then w else Memory.read m a

/-- Put a cell in its place by address. -/
def Memory.insert : Memory → Nat → Byte → Memory
  | [], a, v => [(a, v)]
  | (b, w) :: m, a, v =>
    if a < b then (a, v) :: (b, w) :: m
    else if a = b then (a, v) :: m
    else (b, w) :: Memory.insert m a v

/-- Take the cell at an address out. -/
def Memory.erase (m : Memory) (a : Nat) : Memory := m.filter (fun c => c.1 ≠ a)

/-- `memory[a] <- v` (R54), keeping the canonical form. -/
def Memory.write (m : Memory) (a : Nat) (v : Byte) : Memory :=
  if v = Memory.unlisted a then m.erase a else m.insert a v

/-- Write bytes at rising addresses from `base` (R57, R69). -/
def Memory.store : Memory → Nat → List Byte → Memory
  | m, _, [] => m
  | m, base, v :: vs => Memory.store (m.write base v) (base + 1) vs

/-- The canonical form from address `lo` on. -/
def Memory.wfFrom : Nat → Memory → Bool
  | _, [] => true
  | lo, (a, v) :: m =>
    decide (lo ≤ a) && decide (a ≤ Config.lastAddr) && (v != Memory.unlisted a) &&
      Memory.wfFrom (a + 1) m

/-- The canonical form: addresses strictly rising and at most 4095, and no cell equal to what an
unlisted address reads as. -/
def Memory.wf (m : Memory) : Bool := Memory.wfFrom 0 m

/-- The byte at address `a`, without the range check (R53). -/
def State.readByte (s : State) (a : Nat) : Byte := s.memory.read a

/-- The `len` bytes from `base` on, in rising address order (R57, R69). -/
def State.loadBytes (s : State) (base len : Nat) : List Byte :=
  (List.range len).map (fun k => s.readByte (base + k))

/-- Store bytes from `base` on, in rising address order, without the range check (R54, R57). -/
def State.storeBytes (s : State) (base : Nat) (vs : List Byte) : State :=
  { s with memory := s.memory.store base vs }

/-- Every one of the `len` addresses from `base` on exists. The sum is a natural number and never
wraps (R55); an access of no byte is always in range (R178). -/
def blockInRange (base len : Nat) : Bool := len == 0 || decide (base + len - 1 ≤ Config.lastAddr)

/-! ## General registers (spec/10_state.md R20) -/

/-- `V[x]` read. -/
def State.readReg (s : State) (x : RegIx) : Byte := s.V[x.toNat]'(x.isLt)

/-- `V[x] <- v`. -/
def State.writeReg (s : State) (x : RegIx) (v : Byte) : State :=
  { s with V := s.V.set x.toNat v x.isLt }

/-- `V[k] <- v` for the listed values, `k` rising from the given index (R166, R69). -/
def State.writeRegs (s : State) : Nat → List Byte → State
  | _, [] => s
  | k, v :: vs => (s.writeReg (BitVec.ofNat 4 k) v).writeRegs (k + 1) vs

/-- `V[0]` to `V[x]`, lowest index first (R165). -/
def State.regsUpTo (s : State) (x : RegIx) : List Byte :=
  (List.range (x.toNat + 1)).map (fun k => s.readReg (BitVec.ofNat 4 k))

/-! ## Address and timer registers (R23, R27, R28, R29) -/

/-- `pc <- a`. -/
def State.setPc (s : State) (a : Addr) : State := { s with pc := a }

/-- `pc <- pc + 2`, as computed in 16 bits (R24, R25). Log entry 12. -/
def State.advance (s : State) : State := s.setPc (s.pc + 2)

/-- `pc <- pc + 4` if the condition holds, else `pc <- pc + 2` (R24). -/
def State.skipIf (s : State) (c : Bool) : State := s.setPc (s.pc + (if c then 4 else 2))

/-- `I <- a`. -/
def State.setI (s : State) (a : Addr) : State := { s with I := a }

/-- `DT <- v`. -/
def State.setDT (s : State) (v : Byte) : State := { s with DT := v }

/-- `ST <- v`. -/
def State.setST (s : State) (v : Byte) : State := { s with ST := v }

/-! ## The return stack (R32) -/

/-- `depth = STACK_DEPTH` (R121, R205). -/
def State.stackFull (s : State) : Bool := s.stackDepth == some s.stack.length

/-- `push(a)`: the new entry comes last (R9). -/
def State.push (s : State) (a : Addr) : State := { s with stack := s.stack ++ [a] }

/-- `pop()`: the last entry and the state without it; none on the empty stack (R9, R120). -/
def State.pop (s : State) : Option (Addr × State) :=
  match s.stack.getLast? with
  | some a => some (a, { s with stack := s.stack.dropLast })
  | none => none

/-! ## The framebuffer sink (R40, R41) -/

/-- `get_pixel(c, r)`. -/
def State.getPixel (s : State) (c : Fin 64) (r : Fin 32) : Bool := s.fb[r][c]

/-- `set_pixel(c, r, b)`. -/
def State.setPixel (s : State) (c : Fin 64) (r : Fin 32) (b : Bool) : State :=
  { s with fb := s.fb.set r (s.fb[r].set c b) }

/-- `clear_pixels()`. -/
def State.clearPixels (s : State) : State := { s with fb := Framebuffer.clear }

/-! ## Taking a fault (spec/60_exceptions.md R201, R204) -/

/-- The code of a fault's cause (R201). -/
def Cause.code : Cause → Nat
  | .emptyStackReturn => 1
  | .addressOutOfRange => 2
  | .stackOverflow => 3

/-- `raise F(info)`: the status and the fault record are written, `pc` stays at the faulting
instruction, and nothing else changes (R204). There is no handler and no return (R210).
Log entry 23. -/
def State.raise (s : State) (c : Cause) (info : Nat) : State :=
  { s with status := .faulted c, faultRecord := some ⟨c, s.pc, info⟩ }

/-- An instruction that touches `len` bytes of memory from `base` on: if all of them exist it goes
on with `k`, else it raises `AddressOutOfRange` with the lowest address that does not, before it
has changed anything (R70, R203). DESIGN CHOICE of the spec, log entry 11: unsafe. -/
def State.touching (s : State) (base len : Nat) (k : State → State) : State :=
  if blockInRange base len then k s else s.raise .addressOutOfRange (max base Config.memSize)

/-! ## Fetch (R56, R101) -/

/-- The two bytes at `pc` and `pc + 1`, high-order byte first; none if either address does not
exist. The parity of `pc` does not matter (R58, log entry 27). -/
def State.fetch (s : State) : Option (Byte × Byte) :=
  if blockInRange s.pc.toNat 2 then some (s.readByte s.pc.toNat, s.readByte (s.pc.toNat + 1))
  else none

/-- The fault of a fetch that is out of range (R101). -/
def State.fetchFault (s : State) : State :=
  s.raise .addressOutOfRange (max s.pc.toNat Config.memSize)

/-! ## The log, the random source and the pump (R42, R43, R44, R106) -/

/-- `log(unrecognised, first, x, y, n)`. -/
def State.logEvent (s : State) (e : LogEvent) : State := { s with log := s.log ++ [e] }

/-- The byte the next `draw()` returns: the queued one, else the free value (R42). -/
def State.nextRandom (s : State) : Byte :=
  match s.randomQueue with
  | r :: _ => r
  | [] => Config.randomByte s.randomCount

/-- The state after one `draw()`. -/
def State.afterDraw (s : State) : State :=
  { s with randomQueue := s.randomQueue.tail, randomCount := s.randomCount + 1 }

/-- The answer the next pump gets: the queued one, else the free value (R43). -/
def State.nextOpen (s : State) : Bool :=
  match s.pumpQueue with
  | b :: _ => b
  | [] => Config.sinkOpen s.pumpCount

/-- `open <- pump_and_present(); if not open then status <- STOPPED`: the host is shown the
framebuffer as it stands and its answer decides the status (R100, R106). -/
def State.pump (s : State) : State :=
  { s with
    shown := some s.fb
    pumpQueue := s.pumpQueue.tail
    pumpCount := s.pumpCount + 1
    status := if s.nextOpen then .running else .stopped }

/-- The end of a step: the pump runs if the handler completed, and does not if it raised a fault
(R100, R106, R204). -/
def State.endStep (s : State) : State :=
  match s.status with
  | .running => s.pump
  | .stopped => s
  | .faulted _ => s

end Sys2Proof.Machine
end

