-- ==== Sys2Proof/Machine/Flags.lean ====
section
/-! DEFINITION. The flag register and every flag computation (spec/10_state.md R21, R26,
spec/42_arithmetic_logic.md R140, R156, spec/44_draw.md R172). -/

namespace Sys2Proof.Machine

/-- `FLAG`, the parameter the machine was constructed with (R7, R21, R230). Log entry 1. -/
def State.flagIx (s : State) : RegIx := s.flag

/-- `bool2byte` (R8): a flag write stores the whole byte 0 or 1 (R26). -/
def bool2byte (c : Bool) : Byte := if c then 1 else 0

/-- `V[FLAG] <- bool2byte(c)`. -/
def State.writeFlag (s : State) (c : Bool) : State := s.writeReg s.flagIx (bool2byte c)

/-- Carry out of `ADD`: the 9-bit sum exceeds 255 (R140, R148). -/
def carryOut (a b : Byte) : Bool := decide (a.toNat + b.toNat > 255)

/-- No borrow: minuend at least subtrahend (R140, R149, R150). -/
def noBorrow (minuend subtrahend : Byte) : Bool := decide (minuend.toNat ≥ subtrahend.toNat)

/-- The collision of one pixel: it was set and the sprite bit is 1 (R172). Log entry 21. -/
def collision (old bit : Bool) : Bool := old && bit

end Sys2Proof.Machine
end

