-- ==== Sys2Proof/Machine/Operands.lean ====
section
/-! DEFINITION. The operand forms: immediates and registers widened to an address
(spec/30_encoding.md R85), the index-plus-offset address (spec/20_memory.md R55), the decimal digits
of a byte (spec/43_index_memory.md R163), and the bits and coordinates of a sprite
(spec/44_draw.md R172, R173, R176). -/

namespace Sys2Proof.Machine

/-- `zext_16(nnn)` (R85). -/
def zextAddr (nnn : Addr12) : Addr := nnn.setWidth 16

/-- `zext_16(v)` of a register's byte (R85, R161, R162). -/
def zextByte (v : Byte) : Addr := v.setWidth 16

/-- The address of data, `I`, as a natural number: `I + k` is formed without wrapping (R55;
log entry 12). -/
def State.base (s : State) : Nat := s.I.toNat

/-- Hundreds, tens and ones of a byte, one digit a byte (R163). -/
def decimalDigits (v : Byte) : List Byte :=
  [BitVec.ofNat 8 (v.toNat / 100), BitVec.ofNat 8 (v.toNat / 10 % 10), BitVec.ofNat 8 (v.toNat % 10)]

/-- The sprite bit of a column: the most significant bit is column 0 (R172, R176, decision D11).
PRESUMED, log entry 10 (the spec's G2): unsafe. -/
def spriteBit (b : Byte) (col : Nat) : Bool := b.getLsbD (7 - col)

/-- `(cx + col) mod 64` (R172, R173). -/
def wrapCol (cx : Byte) (col : Nat) : Fin 64 := Fin.ofNat 64 (cx.toNat + col)

/-- `(cy + row) mod 32` (R172, R173). -/
def wrapRow (cy : Byte) (row : Nat) : Fin 32 := Fin.ofNat 32 (cy.toNat + row)

end Sys2Proof.Machine
end

