-- ==== Sys2Proof/Machine/Alu.lean ====
section
/-! DEFINITION. Register load, arithmetic, logic, shifts and random (spec/42_arithmetic_logic.md).
Operands are read before anything is written, and the two writes of `ADD`, `SUB` and `SUBR` come in
the order of R147 (decision D14). DESIGN CHOICES of the spec, log entries 14 and 15 (which
instructions write no flag): unsafe. -/

namespace Sys2Proof.Machine

/-- `LDI Vx, nn` (R141). -/
def execLdi (x : RegIx) (nn : Byte) (s : State) : Out := .next (s.writeReg x nn).advance

/-- `ADDI Vx, nn` (R142): the sum wraps modulo 256 and no flag is written. -/
def execAddi (x : RegIx) (nn : Byte) (s : State) : Out :=
  .next (s.writeReg x (s.readReg x + nn)).advance

/-- `MOV Vx, Vy` (R143). -/
def execMov (x y : RegIx) (s : State) : Out := .next (s.writeReg x (s.readReg y)).advance

/-- `OR Vx, Vy` (R144). -/
def execOr (x y : RegIx) (s : State) : Out :=
  .next (s.writeReg x (s.readReg x ||| s.readReg y)).advance

/-- `AND Vx, Vy` (R145). -/
def execAnd (x y : RegIx) (s : State) : Out :=
  .next (s.writeReg x (s.readReg x &&& s.readReg y)).advance

/-- `XOR Vx, Vy` (R146). -/
def execXor (x y : RegIx) (s : State) : Out :=
  .next (s.writeReg x (s.readReg x ^^^ s.readReg y)).advance

/-- `ADD Vx, Vy` (R148): the result is written, then the flag. -/
def execAdd (x y : RegIx) (s : State) : Out :=
  let a := s.readReg x
  let b := s.readReg y
  .next ((s.writeReg x (a + b)).writeFlag (carryOut a b)).advance

/-- `SUB Vx, Vy` (R149): the flag is written, then the result. -/
def execSub (x y : RegIx) (s : State) : Out :=
  let a := s.readReg x
  let b := s.readReg y
  .next ((s.writeFlag (noBorrow a b)).writeReg x (a - b)).advance

/-- `SUBR Vx, Vy` (R150): the flag is written, then the result, which goes to `V[y]`. -/
def execSubr (x y : RegIx) (s : State) : Out :=
  let a := s.readReg x
  let b := s.readReg y
  .next ((s.writeFlag (noBorrow b a)).writeReg y (b - a)).advance

/-- `SHR Vx` (R151): `y` is ignored and no flag is written. -/
def execShr (x _y : RegIx) (s : State) : Out := .next (s.writeReg x (s.readReg x >>> 1)).advance

/-- `SHL Vx` (R152): `y` is ignored and no flag is written. -/
def execShl (x _y : RegIx) (s : State) : Out := .next (s.writeReg x (s.readReg x <<< 1)).advance

/-- `RND Vx, nn` (R153): exactly one `draw()`. -/
def execRnd (x : RegIx) (nn : Byte) (s : State) : Out :=
  .next (s.afterDraw.writeReg x (s.nextRandom &&& nn)).advance

end Sys2Proof.Machine
end

