-- ==== Sys2Proof/Machine/ControlFlow.lean ====
section
/-! DEFINITION. Return, call, jumps and skips (spec/41_control_flow.md). `pc` is the address of the
instruction itself throughout (R101). -/

namespace Sys2Proof.Machine

/-- `RET` (R120): no further 2 is added to the popped address. -/
def execRet (s : State) : Out :=
  .next (match s.pop with
    | some (a, t) => t.setPc a
    | none => s.raise .emptyStackReturn 0)

/-- `CALL nnn` (R121). -/
def execCall (nnn : Addr12) (s : State) : Out :=
  .next (if s.stackFull then s.raise .stackOverflow 0
    else (s.push (s.pc + 2)).setPc (zextAddr nnn))

/-- `JP nnn` (R122). -/
def execJp (nnn : Addr12) (s : State) : Out := .next (s.setPc (zextAddr nnn))

/-- `JPREL nnn` (R123, decision D16). DEDUCED by the spec, log entry 16: unsafe. -/
def execJprel (nnn : Addr12) (s : State) : Out :=
  .next (s.setPc (s.pc + zextAddr nnn + zextByte (s.readReg 0)))

/-- `SEQI Vx, nn` (R124). -/
def execSeqi (x : RegIx) (nn : Byte) (s : State) : Out := .next (s.skipIf (s.readReg x == nn))

/-- `SNEI Vx, nn` (R125). -/
def execSnei (x : RegIx) (nn : Byte) (s : State) : Out := .next (s.skipIf (s.readReg x != nn))

/-- `SEQ Vx, Vy` (R126). -/
def execSeq (x y : RegIx) (s : State) : Out := .next (s.skipIf (s.readReg x == s.readReg y))

/-- `SNE Vx, Vy` (R127). -/
def execSne (x y : RegIx) (s : State) : Out := .next (s.skipIf (s.readReg x != s.readReg y))

end Sys2Proof.Machine
end

