-- ==== Sys2Proof/Machine/Draw.lean ====
section
/-! DEFINITION. The draw controller (spec/44_draw.md). Rows are drawn in rising order, and in each
row the columns in rising order (R176, decision D12); every pixel writes the flag, so the last one
decides it (R174). DESIGN CHOICES of the spec, log entries 18, 19, 21 and 22: unsafe. -/

namespace Sys2Proof.Machine

/-- `CLS` (R171). -/
def execCls (s : State) : Out := .next s.clearPixels.advance

/-- One pixel: it becomes `old xor bit` and the flag becomes its collision (R172). -/
def State.drawPixel (s : State) (c : Fin 64) (r : Fin 32) (bit : Bool) : State :=
  (s.setPixel c r (s.getPixel c r ^^ bit)).writeFlag (collision (s.getPixel c r) bit)

/-- One sprite row: 8 pixels, each wrapped separately (R172, R173). -/
def State.drawRow (s : State) (cx cy : Byte) (row : Nat) (b : Byte) : State :=
  (List.range 8).foldl
    (fun t col => t.drawPixel (wrapCol cx col) (wrapRow cy row) (spriteBit b col)) s

/-- The sprite rows from number `row` on (R172). -/
def State.drawRows (s : State) (cx cy : Byte) : Nat → List Byte → State
  | _, [] => s
  | row, b :: bs => (s.drawRow cx cy row b).drawRows cx cy (row + 1) bs

/-- `DRW Vx, Vy, n` (R172): `V[x]`, `V[y]` and `I` are read once, before the first pixel (R177);
with `n` = 0 nothing happens but the advance (R178). -/
def execDrw (x y : RegIx) (n : Nib) (s : State) : Out :=
  let cx := s.readReg x
  let cy := s.readReg y
  .next (s.touching s.base n.toNat fun t =>
    (t.drawRows cx cy 0 (t.loadBytes t.base n.toNat)).advance)

end Sys2Proof.Machine
end

