-- ==== Sys2Proof/Machine/IndexMemory.lean ====
section
/-! DEFINITION. Index register and memory instructions (spec/43_index_memory.md). None of them
changes its base `I` but `IADD`, `SETI` and `FONT` (R167). -/

namespace Sys2Proof.Machine

/-- `SETI nnn` (R160). -/
def execSeti (nnn : Addr12) (s : State) : Out := .next (s.setI (zextAddr nnn)).advance

/-- `IADD Vx` (R161): modulo 65536, no flag, no range check. DESIGN CHOICES of the spec, log entries
13 and 15: unsafe. -/
def execIadd (x : RegIx) (s : State) : Out := .next (s.setI (s.I + zextByte (s.readReg x))).advance

/-- `FONT Vx` (R162): the whole byte, not scaled. Log entry 20. -/
def execFont (x : RegIx) (s : State) : Out := .next (s.setI (zextByte (s.readReg x))).advance

/-- `BCD Vx` (R163). -/
def execBcd (x : RegIx) (s : State) : Out :=
  .next (s.touching s.base 3 fun t =>
    (t.storeBytes t.base (decimalDigits (t.readReg x))).advance)

/-- `STM Vx` (R165). -/
def execStm (x : RegIx) (s : State) : Out :=
  .next (s.touching s.base (x.toNat + 1) fun t => (t.storeBytes t.base (t.regsUpTo x)).advance)

/-- `LDM Vx` (R166): all 16 registers, whatever `x` is. DESIGN CHOICE of the spec, log entry 20:
unsafe. -/
def execLdm (_x : RegIx) (s : State) : Out :=
  .next (s.touching s.base 16 fun t => (t.writeRegs 0 (t.loadBytes t.base 16)).advance)

end Sys2Proof.Machine
end

