-- ==== Sys2Proof/Machine/TimersKeys.lean ====
section
/-! DEFINITION. Timer instructions and keyboard stubs (spec/45_timers_and_input_stubs.md), and the
unrecognised pattern (spec/40_step_cycle.md R104). Nothing else writes a timer: log entry 17. -/

namespace Sys2Proof.Machine

/-- `GDT Vx` (R180). -/
def execGdt (x : RegIx) (s : State) : Out := .next (s.writeReg x s.DT).advance

/-- `SDT Vx` (R182). -/
def execSdt (x : RegIx) (s : State) : Out := .next (s.setDT (s.readReg x)).advance

/-- `SST Vx` (R183). -/
def execSst (x : RegIx) (s : State) : Out := .next (s.setST (s.readReg x)).advance

/-- `SKP Vx` (R184): a stub that never skips. -/
def execSkp (_x : RegIx) (s : State) : Out := .next s.advance

/-- `SKNP Vx` (R185, conflict C2): a stub that never skips. DEDUCED, log entry 28: unsafe. -/
def execSknp (_x : RegIx) (s : State) : Out := .next s.advance

/-- `WKEY Vx` (R186): a stub that neither waits nor writes a register. -/
def execWkey (_x : RegIx) (s : State) : Out := .next s.advance

/-- The unrecognised pattern (R104): one log event and `pc <- pc + 2`. -/
def execUnrecognised (first x y n : Nib) (s : State) : Out :=
  .next (s.logEvent ⟨first, x, y, n⟩).advance

end Sys2Proof.Machine
end

