-- ==== Sys2Proof/Machine/Step.lean ====
section
/-! DEFINITION. One step: fetch, decode, dispatch, execute, pump (spec/40_step_cycle.md R100). -/

namespace Sys2Proof.Machine

/-- Decode, execute and end the step, once the two bytes are fetched (R102 to R106). -/
def stepFetched (s : State) (b0 b1 : Byte) : Host.Outcome State Fault Refusal :=
  match exec (decodeBytes b0 b1) s with
  | .next t => .next t.endStep
  | .fault f => .fault f
  | .refused r => .refused r

/-- One step (R100). Only a running machine has one (R36). -/
def step (s : State) : Host.Outcome State Fault Refusal :=
  match s.status with
  | .stopped => .fault .machineStopped
  | .faulted c => .fault (.machineFaulted c)
  | .running =>
    match s.fetch with
    | some (b0, b1) => stepFetched s b0 b1
    | none => .next s.fetchFault

/-- The state with one instruction word, numbered as spec/opcode_table.json numbers it, stored where
the next fetch reads. A `pc` that cannot be fetched from is set to its reset value, and the status to
running with no fault record, so that the next step runs the word from every state. Log entry 25. -/
def State.withFetchWord (s : State) (nbits w : Nat) : State :=
  let word : Word16 := BitVec.ofNat 16 (w % 2 ^ nbits)
  let pc := if blockInRange s.pc.toNat 2 then s.pc else Config.pcReset
  { s with
    pc := pc
    status := .running
    faultRecord := none
    memory := s.memory.store pc.toNat [hiByte word, loByte word] }

end Sys2Proof.Machine
end

