-- ==== Sys2Proof/Machine/Boot.lean ====
section
/-! DEFINITION. Construction of a machine with any parameters (spec/70_reset_and_hazards.md R230,
R232). `State.reset` is the one with the default `FONT`, an empty `ROM`, `FLAG` = 15 and an unbounded
stack. -/

namespace Sys2Proof.Machine

/-- Reset with the parameters `FONT`, `ROM`, `FLAG` and `STACK_DEPTH` (R46, R230, R232): glyphs at 0,
the ROM at 512, zeros elsewhere (log entries 1, 2, 5, 8 and 9). A ROM longer than 3584 bytes is
refused (R71, R222; log entry 24). -/
def construct (font : Vector Byte 80) (rom : List Byte) (flag : RegIx) (depth : Option Nat) : Out :=
  if rom.length ≤ Config.romMax then
    .next { State.reset with
      memory := (Memory.store [] 0 font.toList).store Config.romBase rom
      flag := flag
      stackDepth := depth }
  else .refused (.romTooLong rom.length)

end Sys2Proof.Machine
end

