-- ==== Sys2Proof/Safety.lean ====
section
/-! DEFINITION. What counts as a safe run, the machine's invariant, and the words the statements use
for what an instruction leaves unchanged. -/

namespace Sys2Proof.Machine

/-- A machine is safe while it is not faulted (spec/60_exceptions.md R210). -/
def State.Safe (s : State) : Prop := ∀ c, s.status ≠ .faulted c

/-- The fault record and the status say the same: there is a record exactly after a fault, with the
fault's cause, the `pc` it left, and an address only for `AddressOutOfRange`, one that does not exist
(R36, R37, R201, R203). -/
def State.RecordAgrees (s : State) : Prop :=
  match s.status with
  | .running => s.faultRecord = none
  | .stopped => s.faultRecord = none
  | .faulted c => ∃ info, s.faultRecord = some ⟨c, s.pc, info⟩ ∧
      (c = .addressOutOfRange → Config.memSize ≤ info) ∧ (c ≠ .addressOutOfRange → info = 0)

/-- What every step keeps. -/
structure State.Inv (s : State) : Prop where
  /-- Memory is in its canonical form, so no cell lies above 4095 (R30). -/
  memory_wf : s.memory.wf = true
  /-- Status and fault record agree (R36, R37). -/
  record : s.RecordAgrees
  /-- The stack never holds more than `STACK_DEPTH` entries (R32). -/
  depth : ∀ d, s.stackDepth = some d → s.stack.length ≤ d
  /-- A stack entry is the address after a `CALL` that was fetched, at most 4096 (R121). -/
  entries : ∀ a ∈ s.stack, a.toNat ≤ 4096
  /-- The largest `pc` any rule can produce is 8444, so `pc` never overflows 16 bits (R25). -/
  pc_bound : s.pc.toNat ≤ 8444

/-- One piece of the state, as fine as an instruction can change it. -/
inductive Part where
  | reg (r : RegIx)
  | pc
  | index
  | delayTimer
  | soundTimer
  | byte (a : Nat)
  | stack
  | pixel (c : Fin 64) (r : Fin 32)
  | status
  | faultRecord
  | flagParam
  | stackDepth
  | log
  | shown
  | randomSource
  | pumpInput

/-- A piece of the state is the same in both states. -/
def Part.same (s t : State) : Part → Prop
  | .reg r => t.readReg r = s.readReg r
  | .pc => t.pc = s.pc
  | .index => t.I = s.I
  | .delayTimer => t.DT = s.DT
  | .soundTimer => t.ST = s.ST
  | .byte a => t.readByte a = s.readByte a
  | .stack => t.stack = s.stack
  | .pixel c r => t.getPixel c r = s.getPixel c r
  | .status => t.status = s.status
  | .faultRecord => t.faultRecord = s.faultRecord
  | .flagParam => t.flag = s.flag
  | .stackDepth => t.stackDepth = s.stackDepth
  | .log => t.log = s.log
  | .shown => t.shown = s.shown
  | .randomSource => t.randomQueue = s.randomQueue ∧ t.randomCount = s.randomCount
  | .pumpInput => t.pumpQueue = s.pumpQueue ∧ t.pumpCount = s.pumpCount

/-- The frame: every piece of the state outside `touched` is the same in both states. -/
def OnlyTouches (s t : State) (touched : Part → Prop) : Prop := ∀ p, ¬ touched p → p.same s t

/-- The state a fatal fault leaves, spelt out: status and fault record, and nothing else (R204). -/
def State.faultedWith (s : State) (c : Cause) (info : Nat) : State :=
  { s with status := .faulted c, faultRecord := some { cause := c, faultPc := s.pc, faultAddr := info } }

/-- `pc` after an instruction that completes (R24). -/
def pcAfter (i : Instr) (s : State) : Addr :=
  match i with
  | .seqi x nn => if s.readReg x = nn then s.pc + 4 else s.pc + 2
  | .snei x nn => if s.readReg x = nn then s.pc + 2 else s.pc + 4
  | .seq x y => if s.readReg x = s.readReg y then s.pc + 4 else s.pc + 2
  | .sne x y => if s.readReg x = s.readReg y then s.pc + 2 else s.pc + 4
  | .jp nnn | .call nnn => BitVec.ofNat 16 nnn.toNat
  | .ret => s.stack.getLast?.getD s.pc
  | .jprel nnn => BitVec.ofNat 16 (s.pc.toNat + nnn.toNat + (s.readReg 0).toNat)
  | .cls | .ldi _ _ | .addi _ _ | .mov _ _ | .or _ _ | .and _ _ | .xor _ _ | .add _ _ | .sub _ _
  | .subr _ _ | .shr _ _ | .shl _ _ | .seti _ | .rnd _ _ | .drw _ _ _ | .skp _ | .sknp _ | .gdt _
  | .sdt _ | .sst _ | .iadd _ | .wkey _ | .font _ | .bcd _ | .stm _ | .ldm _
  | .unrecognised _ _ _ _ => s.pc + 2

/-- The general registers an instruction may write in a state, whose `FLAG` says which is the flag
register (R22). -/
def mayWriteReg (i : Instr) (s : State) (r : RegIx) : Prop :=
  match i with
  | .ldi x _ | .addi x _ | .mov x _ | .or x _ | .and x _ | .xor x _ | .shr x _ | .shl x _
  | .rnd x _ | .gdt x => r = x
  | .add x _ | .sub x _ => r = x ∨ r = s.flagIx
  | .subr _ y => r = y ∨ r = s.flagIx
  | .drw _ _ n => r = s.flagIx ∧ n ≠ 0
  | .ldm _ => True
  | .cls | .ret | .call _ | .jp _ | .seqi _ _ | .snei _ _ | .seq _ _ | .sne _ _ | .seti _ | .jprel _
  | .skp _ | .sknp _ | .sdt _ | .sst _ | .iadd _ | .wkey _ | .font _ | .bcd _ | .stm _
  | .unrecognised _ _ _ _ => False

/-- The two states agree on everything but the sound timer, the log and the frame last shown, the
three things no rule reads (R29, R44, R41). -/
def AgreeButUnread (s t : State) : Prop :=
  t = { s with ST := t.ST, log := t.log, shown := t.shown }

/-- The outcomes agree on everything no rule reads (R29, R44). -/
def OutcomesAgreeButUnread : Out → Out → Prop
  | .next s, .next t => AgreeButUnread s t
  | .fault f, .fault g => f = g
  | .refused q, .refused r => q = r
  | .next _, .fault _ => False
  | .next _, .refused _ => False
  | .fault _, .next _ => False
  | .fault _, .refused _ => False
  | .refused _, .next _ => False
  | .refused _, .fault _ => False

end Sys2Proof.Machine
end

