-- ==== Sys2Proof/Certificates/Slice0/Obligations.lean ====
section
/-! DEFINITION. The statements for the provers. `exec i s = .next t` is how an instruction completes;
`OnlyTouches s t P` is its frame; `s.faultedWith c info` is the state a fatal fault leaves. -/

open Sys2Proof Sys2Proof.Machine

/-! ## Encoding -/

/-- The mask and match of rows 1 to 10 of spec/opcode_table.json (R86). -/
def Sys2Proof.tableControl : List (Word16 × Word16) :=
  [(0xFFFF, 0x00E0), (0xFFFF, 0x00EE), (0xF000, 0x0000), (0xF000, 0x1000), (0xF000, 0x6000),
   (0xF000, 0x7000), (0xF000, 0x3000), (0xF000, 0x4000), (0xF00F, 0x5000), (0xF00F, 0x9000)]

/-- The mask and match of rows 11 to 19 (R86). -/
def Sys2Proof.tableAlu : List (Word16 × Word16) :=
  [(0xF00F, 0x8000), (0xF00F, 0x8001), (0xF00F, 0x8002), (0xF00F, 0x8003), (0xF00F, 0x8004),
   (0xF00F, 0x8005), (0xF00F, 0x8007), (0xF00F, 0x8006), (0xF00F, 0x800E)]

/-- The mask and match of rows 20 to 34 (R86). -/
def Sys2Proof.tableRest : List (Word16 × Word16) :=
  [(0xF000, 0xA000), (0xF000, 0xB000), (0xF000, 0xC000), (0xF000, 0xD000), (0xF0FF, 0xE09E),
   (0xF0FF, 0xE0A1), (0xF0FF, 0xF007), (0xF0FF, 0xF015), (0xF0FF, 0xF018), (0xF0FF, 0xF01E),
   (0xF0FF, 0xF00A), (0xF0FF, 0xF029), (0xF0FF, 0xF033), (0xF0FF, 0xF055), (0xF0FF, 0xF065)]

/-- The opcode table's masks and matches in dispatch order (R86). -/
def Sys2Proof.tableMaskMatch : List (Word16 × Word16) := tableControl ++ tableAlu ++ tableRest

/-- The order number of an instruction's row (R86). -/
def Sys2Proof.rowNumber : Instr → Nat
  | .cls => 1 | .ret => 2 | .call _ => 3 | .jp _ => 4 | .ldi _ _ => 5 | .addi _ _ => 6
  | .seqi _ _ => 7 | .snei _ _ => 8 | .seq _ _ => 9 | .sne _ _ => 10 | .mov _ _ => 11
  | .or _ _ => 12 | .and _ _ => 13 | .xor _ _ => 14 | .add _ _ => 15 | .sub _ _ => 16
  | .subr _ _ => 17 | .shr _ _ => 18 | .shl _ _ => 19 | .seti _ => 20 | .jprel _ => 21
  | .rnd _ _ => 22 | .drw _ _ _ => 23 | .skp _ => 24 | .sknp _ => 25 | .gdt _ => 26 | .sdt _ => 27
  | .sst _ => 28 | .iadd _ => 29 | .wkey _ => 30 | .font _ => 31 | .bcd _ => 32 | .stm _ => 33
  | .ldm _ => 34 | .unrecognised _ _ _ _ => 35

/-- One word of each family, written out from its encoding (R96 and the vectors of
spec/95_test_vectors.md), decodes to the instruction it stands for. -/
def Obligations.SampleWordsDecode : Prop :=
  decodeWord 0x00E0 = .cls ∧ decodeWord 0x00EE = .ret ∧ decodeWord 0x0300 = .call 0x300 ∧
  decodeWord 0x63FF = .ldi 3 0xFF ∧ decodeWord 0x8AB4 = .add 0xA 0xB ∧
  decodeWord 0xABCD = .seti 0xBCD ∧ decodeWord 0xF265 = .ldm 2 ∧
  decodeWord 0xD015 = .drw 0 1 5 ∧ decodeWord 0xF307 = .gdt 3 ∧ decodeWord 0xE3A1 = .sknp 3 ∧
  decodeWord 0x2ABC = .unrecognised 0x2 0xA 0xB 0xC

/-- The decoder's contract, field by field as numbers, and the identities of R83. -/
def Obligations.DecoderFieldsOfTwoBytes : Prop :=
  ∀ b0 b1 : Byte,
    (decodeFields b0 b1).first.toNat = b0.toNat / 16 ∧
    (decodeFields b0 b1).x.toNat = b0.toNat % 16 ∧
    (decodeFields b0 b1).y.toNat = b1.toNat / 16 ∧
    (decodeFields b0 b1).n.toNat = b1.toNat % 16 ∧
    (decodeFields b0 b1).nn.toNat = (b1.toNat / 16) * 16 + b1.toNat % 16 ∧
    (decodeFields b0 b1).nnn.toNat =
      (b0.toNat % 16) * 256 + (b1.toNat / 16) * 16 + b1.toNat % 16 ∧
    (decodeFields b0 b1).nn = b1 ∧
    (decodeFields b0 b1).nnn.toNat = (b0.toNat % 16) * 256 + b1.toNat ∧
    (wordOf b0 b1).toNat =
      (decodeFields b0 b1).first.toNat * 4096 + (decodeFields b0 b1).nnn.toNat

/-- Decoding the bytes of a well-formed instruction gives it back, whatever follows them. -/
def Obligations.DecodeOfEncode : Prop :=
  ∀ (i : Instr) (rest : List Byte), i.wf = true → decode (encodeBytes i ++ rest) = .ok (i, rest)

/-- Every pair of bytes decodes to a well-formed instruction whose bytes are that pair: no word has
two readings and no bit is dropped, ignored fields included. -/
def Obligations.EncodeOfDecode : Prop :=
  ∀ b0 b1 : Byte,
    (decodeBytes b0 b1).wf = true ∧ encodeBytes (decodeBytes b0 b1) = [b0, b1]

/-- The decoder agrees with the masks and matches of the opcode table: the row of the decoded
instruction is the first row that the word matches, row 35 if none (R86). That the zero word is then
row 3, `CALL`, is how the spec resolves conflict C1 (log entry 28, DEDUCED). -/
def Obligations.DecoderFollowsOpcodeTable : Prop :=
  ∀ w : Word16,
    rowNumber (decodeWord w) = tableMaskMatch.findIdx (fun p => w &&& p.1 == p.2) + 1

/-- Only rows 1 and 2 overlap another row, and that row is row 3 (R87, an inference of the spec). -/
def Obligations.OnlyClsAndRetOverlapCall : Prop :=
  ∀ (d : Decoded) (j k : Nat) (rj rk : Row), j < k →
    opcodeRows[j]? = some rj → opcodeRows[k]? = some rk →
    rj.pat.accepts d = true → rk.pat.accepts d = true → (j = 0 ∨ j = 1) ∧ k = 2

/-- A word is unrecognised exactly when it is on the list of R89 (an inference of the spec), and the
term then carries its four nibbles. -/
def Obligations.UnrecognisedWordsAreTheListed : Prop :=
  ∀ b0 b1 : Byte,
    (unrecognisedNibs (hiNib b0) (hiNib b1) (loNib b1) = true →
      decodeBytes b0 b1 = .unrecognised (hiNib b0) (loNib b0) (hiNib b1) (loNib b1)) ∧
    (unrecognisedNibs (hiNib b0) (hiNib b1) (loNib b1) = false →
      ∀ first x y n, decodeBytes b0 b1 ≠ .unrecognised first x y n)

/-- A field that a handler ignores has no effect (R94). -/
def Obligations.IgnoredFieldsHaveNoEffect : Prop :=
  ∀ (x y z : RegIx) (s : State),
    exec (.shr x y) s = exec (.shr x z) s ∧ exec (.shl x y) s = exec (.shl x z) s ∧
    exec (.skp y) s = exec (.skp z) s ∧ exec (.sknp y) s = exec (.sknp z) s ∧
    exec (.wkey y) s = exec (.wkey z) s ∧ exec (.ldm y) s = exec (.ldm z) s

/-! ## The step cycle, faults and the invariant -/

/-- When the bytes at `pc` decode to an instruction, the step is that instruction and then the end
of the step (the pump, unless the instruction raised a fault). -/
def Obligations.StepExecutesDecodedInstruction : Prop :=
  ∀ (s : State) (i : Instr), s.status = .running → s.pc.toNat + 1 ≤ 4095 →
    decode [s.readByte s.pc.toNat, s.readByte (s.pc.toNat + 1)] = .ok (i, []) →
    step s = match exec i s with
      | .next t => .next t.endStep
      | .fault f => .fault f
      | .refused r => .refused r

/-- The whole step cycle of R100: the fetch may fault, a completed handler is followed by the pump, a
handler that raised a fault is not, and only a running machine has a step. The address a fetch fault
records is decision D28 (R101, log entry 11); the fault as a next state with its record, and the two
answers of a machine that has no step, are decision D21 (log entry 23). -/
def Obligations.StepCycle : Prop :=
  ∀ s : State,
    (s.status = .running → s.pc.toNat + 1 > 4095 →
      step s = .next (s.faultedWith .addressOutOfRange (max s.pc.toNat 4096))) ∧
    (∀ t, s.status = .running → s.pc.toNat + 1 ≤ 4095 →
      exec (decodeBytes (s.readByte s.pc.toNat) (s.readByte (s.pc.toNat + 1))) s = .next t →
      (t.status = .running → step s = .next t.pump) ∧
      (∀ c, t.status = .faulted c → step s = .next t)) ∧
    (s.status = .stopped → step s = .fault .machineStopped) ∧
    (∀ c, s.status = .faulted c → step s = .fault (.machineFaulted c))

/-- The pump of a step that did not fault shows the host the framebuffer as the handler left it, and
the host's answer alone decides whether the machine stops (R106, decision D19). The answer is the
queued one, else the free value of `Config.sinkOpen` (log entry 4); the statement holds for both. -/
def Obligations.PumpEndsEveryCompletedStep : Prop :=
  ∀ (s t : State), s.status = .running → s.pc.toNat + 1 ≤ 4095 →
    exec (decodeBytes (s.readByte s.pc.toNat) (s.readByte (s.pc.toNat + 1))) s = .next t →
    t.status = .running →
    ∃ u, step s = .next u ∧ u.shown = some t.fb ∧ u.pumpCount = t.pumpCount + 1 ∧
      (∀ b rest, t.pumpQueue = b :: rest →
        u.pumpQueue = rest ∧ u.status = if b then .running else .stopped) ∧
      (t.pumpQueue = [] →
        u.pumpQueue = [] ∧ u.status = if Config.sinkOpen t.pumpCount then .running else .stopped) ∧
      OnlyTouches t u (fun p => p = .status ∨ p = .shown ∨ p = .pumpInput)

/-- A running machine always has a step; a stopped or faulted one has none (R218). -/
def Obligations.RunningMachineAlwaysSteps : Prop :=
  ∀ s : State,
    (s.status = .running → ∃ t, step s = .next t) ∧
    (s.status ≠ .running → ∀ t, step s ≠ .next t)

/-- Which instruction can raise what, and when (R203, R219: decisions D2 and D7 and an inference of
the spec): in every other case a running machine's handler leaves it running. -/
def Obligations.FaultsAreTheListed : Prop :=
  ∀ (i : Instr) (s t : State), s.status = .running → exec i s = .next t →
    t.status = .running ∨
    (i = .ret ∧ s.stack = [] ∧ t = s.faultedWith .emptyStackReturn 0) ∨
    ((∃ nnn, i = .call nnn) ∧ s.stackDepth = some s.stack.length ∧
      t = s.faultedWith .stackOverflow 0) ∨
    (((∃ x y n, i = .drw x y n ∧ n ≠ 0 ∧ s.I.toNat + n.toNat - 1 > 4095) ∨
      (∃ x, i = .bcd x ∧ s.I.toNat + 2 > 4095) ∨
      (∃ x, i = .stm x ∧ s.I.toNat + x.toNat > 4095) ∨
      (∃ x, i = .ldm x ∧ s.I.toNat + 15 > 4095)) ∧
      t = s.faultedWith .addressOutOfRange (max s.I.toNat 4096))

/-- Fault entry is precise (R204, decisions D3 and D21): a step that ends faulted has changed the
status and the fault record and nothing else, and there is no further step. -/
def Obligations.FaultEntryIsPrecise : Prop :=
  ∀ (s t : State) (c : Cause), step s = .next t → t.status = .faulted c →
    (∃ info, t = s.faultedWith c info) ∧ step t = .fault (.machineFaulted c)

/-- The invariant of `State.Inv` is kept by every step, from every state that has it: memory stays
canonical and within 4096 bytes, the fault record agrees with the status, the stack stays within
`STACK_DEPTH`, its entries stay at most 4096 and `pc` at most 8444 (R25; the widths are decision D4,
log entry 12). -/
def Obligations.StepKeepsInvariant : Prop :=
  ∀ s t : State, s.Inv → step s = .next t → t.Inv

/-- The invariant holds right after reset. -/
def Obligations.ResetHasInvariant : Prop := State.reset.Inv

/-- The invariant holds after construction with any glyph table, any ROM that fits and any stack
depth. -/
def Obligations.ConstructedMachineHasInvariant : Prop :=
  ∀ (font : Vector Byte 80) (rom : List Byte) (flag : RegIx) (depth : Option Nat) (t : State),
    construct font rom flag depth = .next t → t.Inv

/-- How each instruction advances `pc`; one that faults leaves it (R24). The base of `JPREL` is decision
D16 (log entry 16, DEDUCED), and that `SKNP` never skips is conflict C2 (log entry 28, DEDUCED). -/
def Obligations.PcAfterEveryInstruction : Prop :=
  ∀ (i : Instr) (s t : State), s.status = .running → exec i s = .next t →
    (t.status = .running → t.pc = pcAfter i s) ∧ (t.status ≠ .running → t.pc = s.pc)

/-- No instruction writes a general register but those R22 lists for it (an inference of the spec;
which instructions write the flag rests on decision D15, log entry 15). -/
def Obligations.RegistersWrittenAreTheListed : Prop :=
  ∀ (i : Instr) (s t : State) (r : RegIx), exec i s = .next t → ¬ mayWriteReg i s r →
    t.readReg r = s.readReg r

/-- `I`, the timers, memory, the stack, the framebuffer, the random source and the log are each changed
only by the instructions the spec names for them, over whole steps (R27, R28, R29, R32, R34, R42, R44,
R167; the timers by decision D18, log entry 17). The parameters `FLAG` and `STACK_DEPTH`, which the
model carries in State (log entries 1 and 5), never change. -/
def Obligations.StateChangesOnlyByItsInstructions : Prop :=
  ∀ (s t : State) (i : Instr), step s = .next t →
    i = decodeBytes (s.readByte s.pc.toNat) (s.readByte (s.pc.toNat + 1)) →
    (t.I ≠ s.I → (∃ a, i = .seti a) ∨ (∃ x, i = .iadd x) ∨ (∃ x, i = .font x)) ∧
    (t.DT ≠ s.DT → ∃ x, i = .sdt x) ∧
    (t.ST ≠ s.ST → ∃ x, i = .sst x) ∧
    (t.memory ≠ s.memory → (∃ x, i = .bcd x) ∨ (∃ x, i = .stm x)) ∧
    (t.stack ≠ s.stack → i = .ret ∨ (∃ a, i = .call a)) ∧
    (t.fb ≠ s.fb → i = .cls ∨ (∃ x y n, i = .drw x y n)) ∧
    (t.randomQueue ≠ s.randomQueue → ∃ x nn, i = .rnd x nn) ∧
    (t.randomCount ≠ s.randomCount → ∃ x nn, i = .rnd x nn) ∧
    (t.log ≠ s.log → ∃ f x y n, i = .unrecognised f x y n) ∧
    t.flag = s.flag ∧ t.stackDepth = s.stackDepth

/-- Nothing reads the sound timer, the log or the frame the host was shown: two states that differ in
them alone have outcomes that differ in them alone (R29, R44). -/
def Obligations.SoundTimerAndLogAreNeverRead : Prop :=
  ∀ s t : State, AgreeButUnread s t → OutcomesAgreeButUnread (step s) (step t)

/-- The word `withFetchWord` places is the one the next step runs, from every state. -/
def Obligations.PlacedWordIsTheNextRun : Prop :=
  ∀ (s : State) (w : Word16),
    step (s.withFetchWord 16 w.toNat) =
      match exec (decodeWord w) (s.withFetchWord 16 w.toNat) with
      | .next t => .next t.endStep
      | .fault f => .fault f
      | .refused r => .refused r

/-! ## Control flow -/

/-- `RET` (R120). What the fault on the empty stack records, and that it changes nothing else, is R201
and R204 (decision D21, log entry 23). -/
def Obligations.RetPopsOrFaults : Prop :=
  ∀ s : State,
    (∀ rest a, s.stack = rest ++ [a] →
      ∃ t, exec .ret s = .next t ∧ t.pc = a ∧ t.stack = rest ∧
        OnlyTouches s t (fun p => p = .pc ∨ p = .stack)) ∧
    (s.stack = [] → exec .ret s = .next (s.faultedWith .emptyStackReturn 0))

/-- `CALL` (R121; the finite stack by decision D7). -/
def Obligations.CallPushesOrFaults : Prop :=
  ∀ (nnn : Addr12) (s : State),
    (s.stackDepth ≠ some s.stack.length →
      ∃ t, exec (.call nnn) s = .next t ∧ t.pc.toNat = nnn.toNat ∧
        t.stack = s.stack ++ [s.pc + 2] ∧ OnlyTouches s t (fun p => p = .pc ∨ p = .stack)) ∧
    (s.stackDepth = some s.stack.length →
      exec (.call nnn) s = .next (s.faultedWith .stackOverflow 0))

/-- A call and a return restore everything, and `pc` is the instruction after the call (the source's
testable property S5). -/
def Obligations.CallThenRetRestores : Prop :=
  ∀ (nnn : Addr12) (s : State), s.stackDepth ≠ some s.stack.length →
    ∃ t, exec (.call nnn) s = .next t ∧ exec .ret t = .next { s with pc := s.pc + 2 }

/-- `JP` (R122): nothing but `pc` changes, and it becomes `nnn`. -/
def Obligations.JpSetsPc : Prop :=
  ∀ (nnn : Addr12) (s : State),
    ∃ t, exec (.jp nnn) s = .next t ∧ t.pc.toNat = nnn.toNat ∧
      OnlyTouches s t (fun p => p = .pc)

/-- `JPREL` (R123; the base by decision D16): the target is `pc + nnn + V[0]` in 16 bits, which at an
address that can be fetched from is the plain sum. -/
def Obligations.JprelAddsToItsOwnAddress : Prop :=
  ∀ (nnn : Addr12) (s : State),
    ∃ t, exec (.jprel nnn) s = .next t ∧
      t.pc.toNat = (s.pc.toNat + nnn.toNat + (s.readReg 0).toNat) % 65536 ∧
      (s.pc.toNat ≤ 4094 → t.pc.toNat = s.pc.toNat + nnn.toNat + (s.readReg 0).toNat) ∧
      OnlyTouches s t (fun p => p = .pc)

/-- `SEQI`, `SNEI`, `SEQ`, `SNE` (R124 to R127). -/
def Obligations.SkipsAddFourOrTwo : Prop :=
  ∀ (x y : RegIx) (nn : Byte) (s : State),
    exec (.seqi x nn) s =
      .next { s with pc := if s.readReg x = nn then s.pc + 4 else s.pc + 2 } ∧
    exec (.snei x nn) s =
      .next { s with pc := if s.readReg x ≠ nn then s.pc + 4 else s.pc + 2 } ∧
    exec (.seq x y) s =
      .next { s with pc := if s.readReg x = s.readReg y then s.pc + 4 else s.pc + 2 } ∧
    exec (.sne x y) s =
      .next { s with pc := if s.readReg x ≠ s.readReg y then s.pc + 4 else s.pc + 2 }

/-- `SKP`, `SKNP`, `WKEY` (R184, R185, R186): stubs that only advance. That `SKNP` does not skip is how
the spec resolves conflict C2 (log entry 28, DEDUCED). -/
def Obligations.KeyStubsOnlyAdvance : Prop :=
  ∀ (x : RegIx) (s : State),
    exec (.skp x) s = .next { s with pc := s.pc + 2 } ∧
    exec (.sknp x) s = .next { s with pc := s.pc + 2 } ∧
    exec (.wkey x) s = .next { s with pc := s.pc + 2 }

/-- The unrecognised pattern (R104; the rest of the state by the spec's inference from R100): one log
event, `pc` by 2, nothing else. That the log is kept in State is the model's choice (log entry 6). -/
def Obligations.UnrecognisedLogsAndAdvances : Prop :=
  ∀ (first x y n : Nib) (s : State),
    ∃ t, exec (.unrecognised first x y n) s = .next t ∧ t.pc = s.pc + 2 ∧
      t.log = s.log ++ [{ first := first, x := x, y := y, n := n }] ∧
      OnlyTouches s t (fun p => p = .pc ∨ p = .log)

/-! ## Arithmetic and logic -/

/-- The flag register is `V[15]` after reset (decision D1, log entry 1: the spec's choice), and the one
the parameter `FLAG` names after construction (R230); no step changes which (`t.flag = s.flag` in
`StateChangesOnlyByItsInstructions`). -/
def Obligations.FlagRegisterIsVF : Prop :=
  State.reset.flagIx.toNat = 15 ∧
  ∀ (font : Vector Byte 80) (rom : List Byte) (flag : RegIx) (depth : Option Nat) (t : State),
    construct font rom flag depth = .next t → t.flagIx = flag ∧ t.stackDepth = depth

/-- `LDI` and `MOV` (R141, R143). -/
def Obligations.LdiAndMovWriteOneRegister : Prop :=
  ∀ (x y : RegIx) (nn : Byte) (s : State),
    (∃ t, exec (.ldi x nn) s = .next t ∧ t.readReg x = nn ∧ t.pc = s.pc + 2 ∧
      OnlyTouches s t (fun p => p = .pc ∨ p = .reg x)) ∧
    (∃ t, exec (.mov x y) s = .next t ∧ t.readReg x = s.readReg y ∧ t.pc = s.pc + 2 ∧
      OnlyTouches s t (fun p => p = .pc ∨ p = .reg x))

/-- `ADDI` (R142): wraps modulo 256 and writes no flag. -/
def Obligations.AddiWrapsWithoutFlag : Prop :=
  ∀ (x : RegIx) (nn : Byte) (s : State),
    ∃ t, exec (.addi x nn) s = .next t ∧
      (t.readReg x).toNat = ((s.readReg x).toNat + nn.toNat) % 256 ∧ t.pc = s.pc + 2 ∧
      OnlyTouches s t (fun p => p = .pc ∨ p = .reg x)

/-- `OR`, `AND`, `XOR` (R144 to R146), bit by bit; that no flag is written is decision D15. -/
def Obligations.LogicActsBitByBit : Prop :=
  ∀ (x y : RegIx) (s : State),
    (∃ t, exec (.or x y) s = .next t ∧
      (∀ k, (t.readReg x).getLsbD k = ((s.readReg x).getLsbD k || (s.readReg y).getLsbD k)) ∧
      t.pc = s.pc + 2 ∧ OnlyTouches s t (fun p => p = .pc ∨ p = .reg x)) ∧
    (∃ t, exec (.and x y) s = .next t ∧
      (∀ k, (t.readReg x).getLsbD k = ((s.readReg x).getLsbD k && (s.readReg y).getLsbD k)) ∧
      t.pc = s.pc + 2 ∧ OnlyTouches s t (fun p => p = .pc ∨ p = .reg x)) ∧
    (∃ t, exec (.xor x y) s = .next t ∧
      (∀ k, (t.readReg x).getLsbD k = ((s.readReg x).getLsbD k ^^ (s.readReg y).getLsbD k)) ∧
      t.pc = s.pc + 2 ∧ OnlyTouches s t (fun p => p = .pc ∨ p = .reg x))

/-- `ADD` (R148): low 8 bits of the 9-bit sum, then the carry, which wins if the destination is the
flag register (decision D14, log entry 14). -/
def Obligations.AddSetsCarryLast : Prop :=
  ∀ (x y : RegIx) (s : State),
    ∃ t, exec (.add x y) s = .next t ∧
      (x ≠ s.flagIx →
        (t.readReg x).toNat = ((s.readReg x).toNat + (s.readReg y).toNat) % 256) ∧
      t.readReg s.flagIx = (if (s.readReg x).toNat + (s.readReg y).toNat > 255 then 1 else 0) ∧
      t.pc = s.pc + 2 ∧
      OnlyTouches s t (fun p => p = .pc ∨ p = .reg x ∨ p = .reg s.flagIx)

/-- `SUB` (R149): the no-borrow flag, then the difference, which wins if the destination is the flag
register (decision D14, log entry 14). -/
def Obligations.SubSetsNoBorrowFirst : Prop :=
  ∀ (x y : RegIx) (s : State),
    ∃ t, exec (.sub x y) s = .next t ∧
      (t.readReg x).toNat = ((s.readReg x).toNat + 256 - (s.readReg y).toNat) % 256 ∧
      (x ≠ s.flagIx → t.readReg s.flagIx = if s.readReg x ≥ s.readReg y then 1 else 0) ∧
      t.pc = s.pc + 2 ∧
      OnlyTouches s t (fun p => p = .pc ∨ p = .reg x ∨ p = .reg s.flagIx)

/-- `SUBR` (R150): `V[y] - V[x]` into `V[y]`, and the same effect as `SUB` with the fields swapped
(write order by decision D14, log entry 14). -/
def Obligations.SubrWritesVy : Prop :=
  ∀ (x y : RegIx) (s : State),
    (∃ t, exec (.subr x y) s = .next t ∧
      (t.readReg y).toNat = ((s.readReg y).toNat + 256 - (s.readReg x).toNat) % 256 ∧
      (y ≠ s.flagIx → t.readReg s.flagIx = if s.readReg y ≥ s.readReg x then 1 else 0) ∧
      t.pc = s.pc + 2 ∧
      OnlyTouches s t (fun p => p = .pc ∨ p = .reg y ∨ p = .reg s.flagIx)) ∧
    exec (.subr x y) s = exec (.sub y x) s

/-- `SHR` and `SHL` (R151, R152): halving and doubling modulo 256; that no flag is written is
decision D15. -/
def Obligations.ShiftsByOneWithoutFlag : Prop :=
  ∀ (x y : RegIx) (s : State),
    (∃ t, exec (.shr x y) s = .next t ∧ (t.readReg x).toNat = (s.readReg x).toNat / 2 ∧
      t.pc = s.pc + 2 ∧ OnlyTouches s t (fun p => p = .pc ∨ p = .reg x)) ∧
    (∃ t, exec (.shl x y) s = .next t ∧ (t.readReg x).toNat = 2 * (s.readReg x).toNat % 256 ∧
      t.pc = s.pc + 2 ∧ OnlyTouches s t (fun p => p = .pc ∨ p = .reg x))

/-- `RND` (R153): one draw, masked; the byte drawn is the queued one, else the free value of
`Config.randomByte` (log entry 3), and every value the mask allows is possible. -/
def Obligations.RndIsAnyMaskedByte : Prop :=
  ∀ (x : RegIx) (nn : Byte) (s : State),
    (∃ t, exec (.rnd x nn) s = .next t ∧
      (∀ r rest, s.randomQueue = r :: rest →
        t.readReg x = r &&& nn ∧ t.randomQueue = rest) ∧
      (s.randomQueue = [] →
        t.readReg x = Config.randomByte s.randomCount &&& nn ∧ t.randomQueue = []) ∧
      t.randomCount = s.randomCount + 1 ∧ t.readReg x &&& ~~~nn = 0 ∧ t.pc = s.pc + 2 ∧
      OnlyTouches s t (fun p => p = .pc ∨ p = .reg x ∨ p = .randomSource)) ∧
    (∀ v : Byte, v &&& ~~~nn = 0 →
      ∃ q t, exec (.rnd x nn) { s with randomQueue := q } = .next t ∧ t.readReg x = v)

/-! ## Index register and memory -/

/-- `SETI` and `FONT` (R160, R162). That `FONT` takes the whole byte and does not scale it is decision
D22 (log entry 20). -/
def Obligations.SetiAndFontSetIndex : Prop :=
  ∀ (nnn : Addr12) (x : RegIx) (s : State),
    (∃ t, exec (.seti nnn) s = .next t ∧ t.I.toNat = nnn.toNat ∧ t.pc = s.pc + 2 ∧
      OnlyTouches s t (fun p => p = .pc ∨ p = .index)) ∧
    (∃ t, exec (.font x) s = .next t ∧ t.I.toNat = (s.readReg x).toNat ∧ t.pc = s.pc + 2 ∧
      OnlyTouches s t (fun p => p = .pc ∨ p = .index))

/-- `IADD` (R161; the wrap by decision D5, no flag by decision D15). -/
def Obligations.IaddWrapsAt65536 : Prop :=
  ∀ (x : RegIx) (s : State),
    ∃ t, exec (.iadd x) s = .next t ∧
      t.I.toNat = (s.I.toNat + (s.readReg x).toNat) % 65536 ∧ t.pc = s.pc + 2 ∧
      OnlyTouches s t (fun p => p = .pc ∨ p = .index)

/-- `BCD` (R163): three digits at `I`, or the fault before any byte is written (decisions D2, D3, log
entry 11). -/
def Obligations.BcdStoresDigitsOrFaults : Prop :=
  ∀ (x : RegIx) (s : State),
    (s.I.toNat + 2 ≤ 4095 →
      ∃ t, exec (.bcd x) s = .next t ∧
        (t.readByte s.I.toNat).toNat = (s.readReg x).toNat / 100 ∧
        (t.readByte (s.I.toNat + 1)).toNat = (s.readReg x).toNat / 10 % 10 ∧
        (t.readByte (s.I.toNat + 2)).toNat = (s.readReg x).toNat % 10 ∧ t.pc = s.pc + 2 ∧
        OnlyTouches s t (fun p => p = .pc ∨ ∃ k, k ≤ 2 ∧ p = .byte (s.I.toNat + k))) ∧
    (s.I.toNat + 2 > 4095 →
      exec (.bcd x) s = .next (s.faultedWith .addressOutOfRange (max s.I.toNat 4096)))

/-- `STM` (R165): `V[0]` to `V[x]` at `I`, or the fault before any byte is written (decisions D2, D3,
log entry 11). -/
def Obligations.StmStoresRegistersOrFaults : Prop :=
  ∀ (x : RegIx) (s : State),
    (s.I.toNat + x.toNat ≤ 4095 →
      ∃ t, exec (.stm x) s = .next t ∧
        (∀ k : RegIx, k.toNat ≤ x.toNat → t.readByte (s.I.toNat + k.toNat) = s.readReg k) ∧
        t.pc = s.pc + 2 ∧
        OnlyTouches s t (fun p => p = .pc ∨ ∃ k, k ≤ x.toNat ∧ p = .byte (s.I.toNat + k))) ∧
    (s.I.toNat + x.toNat > 4095 →
      exec (.stm x) s = .next (s.faultedWith .addressOutOfRange (max s.I.toNat 4096)))

/-- `LDM` (R166; that `I` is unchanged is decision D22): all 16 registers, whatever `x` is, or the
fault before any register is written (decisions D2, D3, log entry 11). -/
def Obligations.LdmLoadsAllRegistersOrFaults : Prop :=
  ∀ (x : RegIx) (s : State),
    (s.I.toNat + 15 ≤ 4095 →
      ∃ t, exec (.ldm x) s = .next t ∧
        (∀ k : RegIx, t.readReg k = s.readByte (s.I.toNat + k.toNat)) ∧ t.pc = s.pc + 2 ∧
        OnlyTouches s t (fun p => p = .pc ∨ ∃ k, p = .reg k)) ∧
    (s.I.toNat + 15 > 4095 →
      exec (.ldm x) s = .next (s.faultedWith .addressOutOfRange (max s.I.toNat 4096)))

/-- Registers stored with `STM VF` are what a later `LDM` loads, in any state that has the same
memory and index register (that `LDM` loads all 16 and leaves `I` is decision D22, log entry 20). -/
def Obligations.LdmAfterStmRestoresRegisters : Prop :=
  ∀ (x : RegIx) (s t u : State), s.I.toNat + 15 ≤ 4095 → exec (.stm 15) s = .next t →
    u.I = s.I → (∀ a, u.readByte a = t.readByte a) →
    ∃ w, exec (.ldm x) u = .next w ∧ ∀ r, w.readReg r = s.readReg r

/-- A store, of `STM` or of `BCD`, is seen by the very next fetch, the two bytes after the storing
instruction included (R67, an inference of the spec): whichever of the two bytes at the next `pc` the
instruction stored to, the fetch gives the stored byte there. -/
def Obligations.StoreIsSeenByNextFetch : Prop :=
  ∀ (x : RegIx) (s t : State), t.pc.toNat + 1 ≤ 4095 →
    (s.I.toNat + x.toNat ≤ 4095 → exec (.stm x) s = .next t →
      ∃ b0 b1, t.fetch = some (b0, b1) ∧
        ∀ k : RegIx, k.toNat ≤ x.toNat →
          (t.pc.toNat = s.I.toNat + k.toNat → b0 = s.readReg k) ∧
          (t.pc.toNat + 1 = s.I.toNat + k.toNat → b1 = s.readReg k)) ∧
    (s.I.toNat + 2 ≤ 4095 → exec (.bcd x) s = .next t →
      ∃ b0 b1, t.fetch = some (b0, b1) ∧
        ∀ k digit : Nat,
          (k = 0 ∧ digit = (s.readReg x).toNat / 100 ∨
            k = 1 ∧ digit = (s.readReg x).toNat / 10 % 10 ∨
            k = 2 ∧ digit = (s.readReg x).toNat % 10) →
          (t.pc.toNat = s.I.toNat + k → b0.toNat = digit) ∧
          (t.pc.toNat + 1 = s.I.toNat + k → b1.toNat = digit))

/-- In canonical form, memories that read the same everywhere are the same list (the model's own
form of the 4096-byte array). -/
def Obligations.CanonicalMemoryIsUnique : Prop :=
  ∀ m n : Memory, m.wf = true → n.wf = true → (∀ a, m.read a = n.read a) → m = n

/-! ## The draw controller -/

/-- `CLS` (R171). -/
def Obligations.ClsClearsEveryPixel : Prop :=
  ∀ s : State,
    ∃ t, exec .cls s = .next t ∧ (∀ c r, t.getPixel c r = false) ∧ t.pc = s.pc + 2 ∧
      OnlyTouches s t (fun p => p = .pc ∨ ∃ c r, p = .pixel c r)

/-- `DRW` (R172, R173, R175; bit order and traversal by decisions D11 and D12): every one of the
`8n` pixels becomes `old xor bit`, each coordinate wrapped separately, the flag is the collision of
the last pixel, and nothing else changes; or the fault before any pixel is touched (decisions D2, D3). Log entries 10, 11,
18 and 21. -/
def Obligations.DrwXorsSpriteOrFaults : Prop :=
  ∀ (x y : RegIx) (n : Nib) (s : State), n ≠ 0 →
    (s.I.toNat + n.toNat - 1 ≤ 4095 →
      ∃ t, exec (.drw x y n) s = .next t ∧
        (∀ (row col : Nat) (c : Fin 64) (r : Fin 32), row < n.toNat → col < 8 →
          c.val = ((s.readReg x).toNat + col) % 64 → r.val = ((s.readReg y).toNat + row) % 32 →
          t.getPixel c r =
            (s.getPixel c r ^^ (s.readByte (s.I.toNat + row)).toNat.testBit (7 - col))) ∧
        (∀ (c : Fin 64) (r : Fin 32), c.val = ((s.readReg x).toNat + 7) % 64 →
          r.val = ((s.readReg y).toNat + n.toNat - 1) % 32 →
          t.readReg s.flagIx =
            if s.getPixel c r = true ∧
              (s.readByte (s.I.toNat + n.toNat - 1)).toNat % 2 = 1 then 1 else 0) ∧
        t.pc = s.pc + 2 ∧
        OnlyTouches s t (fun p => p = .pc ∨ p = .reg s.flagIx ∨
          ∃ (row col : Nat) (c : Fin 64) (r : Fin 32), row < n.toNat ∧ col < 8 ∧
            c.val = ((s.readReg x).toNat + col) % 64 ∧
            r.val = ((s.readReg y).toNat + row) % 32 ∧ p = .pixel c r)) ∧
    (s.I.toNat + n.toNat - 1 > 4095 →
      exec (.drw x y n) s = .next (s.faultedWith .addressOutOfRange (max s.I.toNat 4096)))

/-- `DRW` with `n` = 0 only advances, whatever `I` holds (R178, decision D13). -/
def Obligations.DrwOfNoRowsOnlyAdvances : Prop :=
  ∀ (x y : RegIx) (s : State), exec (.drw x y 0) s = .next { s with pc := s.pc + 2 }

/-- Drawing the same sprite at the same place twice gives every pixel back (the source's testable
property S6, R175): the state of the second draw has the framebuffer the first one left, and the
same coordinates, index register and sprite bytes. -/
def Obligations.DrawingTwiceRestoresPixels : Prop :=
  ∀ (x y : RegIx) (n : Nib) (s t t' u : State), exec (.drw x y n) s = .next t →
    (∀ c r, t'.getPixel c r = t.getPixel c r) → t'.readReg x = s.readReg x →
    t'.readReg y = s.readReg y → t'.I = s.I → (∀ a, t'.readByte a = s.readByte a) →
    exec (.drw x y n) t' = .next u → ∀ c r, u.getPixel c r = s.getPixel c r

/-! ## Timers -/

/-- `GDT`, `SDT`, `SST` (R180, R182, R183). -/
def Obligations.TimersAreReadAndWritten : Prop :=
  ∀ (x : RegIx) (s : State),
    (∃ t, exec (.gdt x) s = .next t ∧ t.readReg x = s.DT ∧ t.pc = s.pc + 2 ∧
      OnlyTouches s t (fun p => p = .pc ∨ p = .reg x)) ∧
    (∃ t, exec (.sdt x) s = .next t ∧ t.DT = s.readReg x ∧ t.pc = s.pc + 2 ∧
      OnlyTouches s t (fun p => p = .pc ∨ p = .delayTimer)) ∧
    (∃ t, exec (.sst x) s = .next t ∧ t.ST = s.readReg x ∧ t.pc = s.pc + 2 ∧
      OnlyTouches s t (fun p => p = .pc ∨ p = .soundTimer))

/-! ## Reset -/

/-- The state after reset (R46; every value marked there "Not stated; D8" is the spec's choice, and
the glyph bytes are its general knowledge G1: log entries 2 and 8). -/
def Obligations.ResetState : Prop :=
  State.reset.pc = 0x200 ∧ (∀ r, State.reset.readReg r = 0) ∧ State.reset.I = 0 ∧
  State.reset.DT = 0 ∧ State.reset.ST = 0 ∧ State.reset.stack = [] ∧
  (∀ c r, State.reset.getPixel c r = false) ∧ State.reset.status = .running ∧
  State.reset.faultRecord = none ∧
  (∀ a, a < 80 → Config.font[a]? = some (State.reset.readByte a)) ∧
  (∀ a, 80 ≤ a → State.reset.readByte a = 0)

/-- The reset contents of memory for every glyph table and every ROM that fits (R30). -/
def Obligations.ConstructedMemory : Prop :=
  ∀ (font : Vector Byte 80) (rom : List Byte) (flag : RegIx) (depth : Option Nat), rom.length ≤ 3584 →
    ∃ t, construct font rom flag depth = .next t ∧
      (∀ (a : Nat) (h : a < 80), t.readByte a = font[a]) ∧
      (∀ (k : Nat) (h : k < rom.length), t.readByte (512 + k) = rom[k]) ∧
      (∀ a, 80 ≤ a → a ≤ 511 → t.readByte a = 0) ∧
      (∀ a, 512 + rom.length ≤ a → a ≤ 4095 → t.readByte a = 0)

/-- A ROM longer than 3584 bytes is refused (R71, R222: decision D9). -/
def Obligations.LongRomIsRefused : Prop :=
  ∀ (font : Vector Byte 80) (rom : List Byte) (flag : RegIx) (depth : Option Nat), 3584 < rom.length →
    construct font rom flag depth = .refused (.romTooLong rom.length)
end

