-- ==== Sys2Proof/Laws/Decode.lean ====
section
/-! SUPPORT. What the joins, the fields and the instruction formats are as numbers, and which record
the decoder makes of each format. -/

namespace Sys2Proof

/-- Joining two words puts the left one above the right one (R8). -/
theorem toNat_join {n m : Nat} (x : BitVec n) (y : BitVec m) :
    (x ++ y).toNat = x.toNat * 2 ^ m + y.toNat := by
  rw [BitVec.toNat_append, ← Nat.shiftLeft_add_eq_or_of_lt y.isLt, Nat.shiftLeft_eq]

@[simp] theorem toNat_joinNibs (h l : Nib) : (joinNibs h l).toNat = h.toNat * 16 + l.toNat :=
  toNat_join h l

@[simp] theorem toNat_join3 (x y n : Nib) :
    (join3 x y n).toNat = x.toNat * 256 + y.toNat * 16 + n.toNat := by
  have h1 : (join3 x y n).toNat = (x ++ y).toNat * 16 + n.toNat := toNat_join (x ++ y) n
  have h2 : (x ++ y).toNat = x.toNat * 16 + y.toNat := toNat_join x y
  omega

@[simp] theorem toNat_wordOf (b0 b1 : Byte) : (wordOf b0 b1).toNat = b0.toNat * 256 + b1.toNat :=
  toNat_join b0 b1

@[simp] theorem toNat_hiNib (b : Byte) : (hiNib b).toNat = b.toNat / 16 := by
  have := b.isLt
  simp [hiNib, Nat.shiftRight_eq_div_pow]
  omega

@[simp] theorem toNat_loNib (b : Byte) : (loNib b).toNat = b.toNat % 16 := by simp [loNib]

@[simp] theorem toNat_hiByte (w : Word16) : (hiByte w).toNat = w.toNat / 256 := by
  have := w.isLt
  simp [hiByte, Nat.shiftRight_eq_div_pow]
  omega

@[simp] theorem toNat_loByte (w : Word16) : (loByte w).toNat = w.toNat % 256 := by simp [loByte]

@[simp] theorem hiNib_joinNibs (h l : Nib) : hiNib (joinNibs h l) = h := by
  have := l.isLt
  apply BitVec.eq_of_toNat_eq; simp; omega

@[simp] theorem loNib_joinNibs (h l : Nib) : loNib (joinNibs h l) = l := by
  have := l.isLt
  apply BitVec.eq_of_toNat_eq; simp; omega

/-- `nn = b1` (R83). -/
@[simp] theorem joinNibs_hiNib_loNib (b : Byte) : joinNibs (hiNib b) (loNib b) = b := by
  apply BitVec.eq_of_toNat_eq; simp; omega

@[simp] theorem hiByte_wordOf (b0 b1 : Byte) : hiByte (wordOf b0 b1) = b0 := by
  have := b1.isLt
  apply BitVec.eq_of_toNat_eq; simp; omega

@[simp] theorem loByte_wordOf (b0 b1 : Byte) : loByte (wordOf b0 b1) = b1 := by
  have := b1.isLt
  apply BitVec.eq_of_toNat_eq; simp; omega

@[simp] theorem wordOf_hiByte_loByte (w : Word16) : wordOf (hiByte w) (loByte w) = w := by
  apply BitVec.eq_of_toNat_eq; simp; omega

/-- Format `XI` is four nibbles, the last two those of the immediate (R81, R84). -/
theorem formXI_eq (first x : Nib) (nn : Byte) :
    formXI first x nn = formXYN first x (hiNib nn) (loNib nn) := by
  have h1 : (formXI first x nn).toNat = (joinNibs first x).toNat * 256 + nn.toNat :=
    toNat_join (joinNibs first x) nn
  apply BitVec.eq_of_toNat_eq
  rw [h1, formXYN, toNat_wordOf, joinNibs_hiNib_loNib]

/-- The three nibbles of a 12-bit field. -/
def nibs3 (a : Addr12) : Nib × Nib × Nib :=
  ((a >>> 8).setWidth 4, (a >>> 4).setWidth 4, a.setWidth 4)

@[simp] theorem join3_nibs3 (a : Addr12) : join3 (nibs3 a).1 (nibs3 a).2.1 (nibs3 a).2.2 = a := by
  have := a.isLt
  apply BitVec.eq_of_toNat_eq
  simp [nibs3, Nat.shiftRight_eq_div_pow]
  omega

/-- Format `A` is four nibbles, the last three those of `nnn` (R81, R84). -/
theorem formA_eq (first : Nib) (nnn : Addr12) :
    formA first nnn = formXYN first (nibs3 nnn).1 (nibs3 nnn).2.1 (nibs3 nnn).2.2 := by
  have h1 : (formA first nnn).toNat = first.toNat * 4096 + nnn.toNat := toNat_join first nnn
  have h2 := congrArg BitVec.toNat (join3_nibs3 nnn)
  rw [toNat_join3] at h2
  apply BitVec.eq_of_toNat_eq
  rw [h1, formXYN, toNat_wordOf, toNat_joinNibs, toNat_joinNibs, ← h2]
  ring

/-- The decoder reads back the four nibbles of a word (R82). -/
@[simp] theorem decodeFields_formXYN (first x y n : Nib) :
    decodeFields (hiByte (formXYN first x y n)) (loByte (formXYN first x y n)) =
      ⟨first, x, y, n, joinNibs y n, join3 x y n⟩ := by
  simp [formXYN, decodeFields]

/-- Every word is four nibbles (R81). -/
theorem formXYN_nibs (b0 b1 : Byte) :
    formXYN (hiNib b0) (loNib b0) (hiNib b1) (loNib b1) = wordOf b0 b1 := by
  simp [formXYN]

/-- Two words are equal when their nibbles are. -/
theorem formXYN_inj {a x y n a' x' y' n' : Nib} :
    formXYN a x y n = formXYN a' x' y' n' ↔ a = a' ∧ x = x' ∧ y = y' ∧ n = n' := by
  constructor
  · intro h
    have := congrArg (fun w => decodeFields (hiByte w) (loByte w)) h
    simp only [decodeFields_formXYN, Decoded.mk.injEq] at this
    exact ⟨this.1, this.2.1, this.2.2.1, this.2.2.2.1⟩
  · rintro ⟨rfl, rfl, rfl, rfl⟩; rfl

/-- A mask acts on each nibble alone. -/
theorem formXYN_and (a x y n a' x' y' n' : Nib) :
    formXYN a x y n &&& formXYN a' x' y' n' =
      formXYN (a &&& a') (x &&& x') (y &&& y') (n &&& n') := by
  have app : ∀ {k m : Nat} (p p' : BitVec k) (q q' : BitVec m),
      (p ++ q) &&& (p' ++ q') = (p &&& p') ++ (q &&& q') := fun p p' q q' => BitVec.and_append
  have h1 := app (joinNibs a x) (joinNibs a' x') (joinNibs y n) (joinNibs y' n')
  have h2 : joinNibs a x &&& joinNibs a' x' = joinNibs (a &&& a') (x &&& x') := app a a' x x'
  have h3 : joinNibs y n &&& joinNibs y' n' = joinNibs (y &&& y') (n &&& n') := app y y' n n'
  rw [h2, h3] at h1
  exact h1

end Sys2Proof
end

