-- ==== Sys2Proof/Laws/Memory.lean ====
section
/-! SUPPORT. The laws of memory: read after write, and that every memory operation keeps the
canonical form, in which equal memories are equal lists. -/

namespace Sys2Proof.Machine

theorem Memory.read_erase (m : Memory) (a c : Nat) :
    (m.erase a).read c = if c = a then Memory.unlisted c else m.read c := by
  induction m with
  | nil => simp [Memory.erase, Memory.read]
  | cons cell m ih =>
    obtain ⟨b, w⟩ := cell
    simp only [Memory.erase, List.filter_cons] at ih ⊢
    by_cases hb : b = a <;> by_cases hc : c = a <;> by_cases hcb : c = b <;>
      simp_all [Memory.read]

theorem Memory.read_insert (m : Memory) (a c : Nat) (v : Byte) :
    (m.insert a v).read c = if c = a then v else m.read c := by
  induction m with
  | nil => simp [Memory.insert, Memory.read]
  | cons cell m ih =>
    obtain ⟨b, w⟩ := cell
    by_cases h1 : a < b
    · simp [Memory.insert, Memory.read, h1]
    · by_cases h2 : a = b
      · subst h2; by_cases hc : c = a <;> simp [Memory.insert, Memory.read, hc]
      · by_cases hc : c = a
        · subst hc; simp [Memory.insert, Memory.read, h1, h2, ih]
        · by_cases hcb : c = b
          · subst hcb; simp [Memory.insert, Memory.read, h1, h2, hc]
          · simp [Memory.insert, Memory.read, h1, h2, ih, hc, hcb]

/-- A read after a write gives the value at the address written and leaves every other alone
(R53, R54, R60). -/
@[simp] theorem Memory.read_write (m : Memory) (a c : Nat) (v : Byte) :
    (m.write a v).read c = if c = a then v else m.read c := by
  unfold Memory.write
  by_cases hv : v = Memory.unlisted a
  · by_cases hc : c = a <;> simp [hv, Memory.read_erase, hc]
  · simp [hv, Memory.read_insert]

/-- What an address reads as after bytes were stored at rising addresses (R57). -/
theorem Memory.read_store (m : Memory) (base c : Nat) (vs : List Byte) :
    (m.store base vs).read c =
      if base ≤ c then (vs[c - base]?).getD (m.read c) else m.read c := by
  induction vs generalizing m base with
  | nil => simp [Memory.store]
  | cons v vs ih =>
    rw [Memory.store, ih]
    by_cases h : base + 1 ≤ c
    · have h1 : base ≤ c := by omega
      have h2 : c - base = (c - (base + 1)) + 1 := by omega
      have h3 : c ≠ base := by omega
      simp [h, h1, h2, h3]
    · by_cases h1 : c = base
      · subst h1; simp
      · have : ¬ base ≤ c := by omega
        simp [h, h1, this]

theorem Memory.wfFrom_mono {lo lo' : Nat} {m : Memory} (h : lo' ≤ lo)
    (hm : Memory.wfFrom lo m = true) : Memory.wfFrom lo' m = true := by
  cases m with
  | nil => rfl
  | cons c m => simp_all [Memory.wfFrom]; omega

theorem Memory.wfFrom_erase {lo : Nat} {m : Memory} (a : Nat)
    (hm : Memory.wfFrom lo m = true) : Memory.wfFrom lo (m.erase a) = true := by
  induction m generalizing lo with
  | nil => rfl
  | cons c m ih =>
    obtain ⟨b, w⟩ := c
    simp only [Memory.wfFrom, Bool.and_eq_true, decide_eq_true_eq] at hm
    have := ih hm.2
    by_cases hb : b = a
    · simpa [Memory.erase, List.filter_cons, hb] using Memory.wfFrom_mono (by omega) this
    · simpa [Memory.erase, List.filter_cons, hb, Memory.wfFrom, hm.1] using this

theorem Memory.wfFrom_insert {lo a : Nat} {m : Memory} {v : Byte} (hlo : lo ≤ a)
    (ha : a ≤ Config.lastAddr) (hv : v ≠ Memory.unlisted a)
    (hm : Memory.wfFrom lo m = true) : Memory.wfFrom lo (m.insert a v) = true := by
  induction m generalizing lo with
  | nil => simp [Memory.insert, Memory.wfFrom, hlo, ha, hv]
  | cons c m ih =>
    obtain ⟨b, w⟩ := c
    simp only [Memory.wfFrom, Bool.and_eq_true, decide_eq_true_eq] at hm
    by_cases h1 : a < b
    · simp [Memory.insert, h1, Memory.wfFrom, hlo, ha, hv, hm]
    · by_cases h2 : a = b
      · subst h2; simp [Memory.insert, Memory.wfFrom, hlo, ha, hv, hm]
      · have := ih (lo := b + 1) (by omega) hm.2
        simp [Memory.insert, h1, h2, Memory.wfFrom, hm, this]

/-- A write to an address that exists keeps the canonical form. -/
theorem Memory.wf_write {m : Memory} {a : Nat} (v : Byte) (ha : a ≤ Config.lastAddr)
    (hm : m.wf = true) : (m.write a v).wf = true := by
  unfold Memory.write Memory.wf
  by_cases hv : v = Memory.unlisted a
  · simpa [hv] using Memory.wfFrom_erase a hm
  · simpa [hv] using Memory.wfFrom_insert (Nat.zero_le a) ha hv hm

/-- Storing bytes keeps the canonical form if every address stored to exists. -/
theorem Memory.wf_store {m : Memory} {base : Nat} {vs : List Byte}
    (h : blockInRange base vs.length = true) (hm : m.wf = true) :
    (m.store base vs).wf = true := by
  induction vs generalizing m base with
  | nil => exact hm
  | cons v vs ih =>
    simp only [blockInRange, List.length_cons, Bool.or_eq_true, beq_iff_eq,
      decide_eq_true_eq] at h
    refine ih ?_ (Memory.wf_write v (by omega) hm)
    simp only [blockInRange, Bool.or_eq_true, beq_iff_eq, decide_eq_true_eq]
    omega

theorem Memory.read_of_lt_wfFrom {lo c : Nat} {m : Memory} (h : c < lo)
    (hm : Memory.wfFrom lo m = true) : m.read c = Memory.unlisted c := by
  induction m generalizing lo with
  | nil => rfl
  | cons cell m ih =>
    obtain ⟨b, w⟩ := cell
    simp only [Memory.wfFrom, Bool.and_eq_true, decide_eq_true_eq] at hm
    have hne : c ≠ b := by omega
    simpa [Memory.read, hne] using ih (by omega) hm.2

end Sys2Proof.Machine
end

