-- ==== Sys2Proof/Laws/State.lean ====
section
/-! SUPPORT. For every update of the state, what each field is afterwards. Each lemma holds by
definition; with them no proof unfolds an update. -/

namespace Sys2Proof.Machine

variable (s : State)

@[simp] theorem writeReg_V (x : RegIx) (v : Byte) : (s.writeReg x v).V = s.V.set x.toNat v x.isLt := rfl
@[simp] theorem writeReg_pc (x : RegIx) (v : Byte) : (s.writeReg x v).pc = s.pc := rfl
@[simp] theorem writeReg_I (x : RegIx) (v : Byte) : (s.writeReg x v).I = s.I := rfl
@[simp] theorem writeReg_DT (x : RegIx) (v : Byte) : (s.writeReg x v).DT = s.DT := rfl
@[simp] theorem writeReg_ST (x : RegIx) (v : Byte) : (s.writeReg x v).ST = s.ST := rfl
@[simp] theorem writeReg_memory (x : RegIx) (v : Byte) : (s.writeReg x v).memory = s.memory := rfl
@[simp] theorem writeReg_stack (x : RegIx) (v : Byte) : (s.writeReg x v).stack = s.stack := rfl
@[simp] theorem writeReg_fb (x : RegIx) (v : Byte) : (s.writeReg x v).fb = s.fb := rfl
@[simp] theorem writeReg_status (x : RegIx) (v : Byte) : (s.writeReg x v).status = s.status := rfl
@[simp] theorem writeReg_faultRecord (x : RegIx) (v : Byte) : (s.writeReg x v).faultRecord = s.faultRecord := rfl
@[simp] theorem writeReg_flag (x : RegIx) (v : Byte) : (s.writeReg x v).flag = s.flag := rfl
@[simp] theorem writeReg_flagIx (x : RegIx) (v : Byte) : (s.writeReg x v).flagIx = s.flagIx := rfl
@[simp] theorem writeReg_stackDepth (x : RegIx) (v : Byte) : (s.writeReg x v).stackDepth = s.stackDepth := rfl
@[simp] theorem writeReg_log (x : RegIx) (v : Byte) : (s.writeReg x v).log = s.log := rfl
@[simp] theorem writeReg_shown (x : RegIx) (v : Byte) : (s.writeReg x v).shown = s.shown := rfl
@[simp] theorem writeReg_randomQueue (x : RegIx) (v : Byte) : (s.writeReg x v).randomQueue = s.randomQueue := rfl
@[simp] theorem writeReg_randomCount (x : RegIx) (v : Byte) : (s.writeReg x v).randomCount = s.randomCount := rfl
@[simp] theorem writeReg_pumpQueue (x : RegIx) (v : Byte) : (s.writeReg x v).pumpQueue = s.pumpQueue := rfl
@[simp] theorem writeReg_pumpCount (x : RegIx) (v : Byte) : (s.writeReg x v).pumpCount = s.pumpCount := rfl

@[simp] theorem setPc_V (a : Addr) : (s.setPc a).V = s.V := rfl
@[simp] theorem setPc_pc (a : Addr) : (s.setPc a).pc = a := rfl
@[simp] theorem setPc_I (a : Addr) : (s.setPc a).I = s.I := rfl
@[simp] theorem setPc_DT (a : Addr) : (s.setPc a).DT = s.DT := rfl
@[simp] theorem setPc_ST (a : Addr) : (s.setPc a).ST = s.ST := rfl
@[simp] theorem setPc_memory (a : Addr) : (s.setPc a).memory = s.memory := rfl
@[simp] theorem setPc_stack (a : Addr) : (s.setPc a).stack = s.stack := rfl
@[simp] theorem setPc_fb (a : Addr) : (s.setPc a).fb = s.fb := rfl
@[simp] theorem setPc_status (a : Addr) : (s.setPc a).status = s.status := rfl
@[simp] theorem setPc_faultRecord (a : Addr) : (s.setPc a).faultRecord = s.faultRecord := rfl
@[simp] theorem setPc_flag (a : Addr) : (s.setPc a).flag = s.flag := rfl
@[simp] theorem setPc_flagIx (a : Addr) : (s.setPc a).flagIx = s.flagIx := rfl
@[simp] theorem setPc_stackDepth (a : Addr) : (s.setPc a).stackDepth = s.stackDepth := rfl
@[simp] theorem setPc_log (a : Addr) : (s.setPc a).log = s.log := rfl
@[simp] theorem setPc_shown (a : Addr) : (s.setPc a).shown = s.shown := rfl
@[simp] theorem setPc_randomQueue (a : Addr) : (s.setPc a).randomQueue = s.randomQueue := rfl
@[simp] theorem setPc_randomCount (a : Addr) : (s.setPc a).randomCount = s.randomCount := rfl
@[simp] theorem setPc_pumpQueue (a : Addr) : (s.setPc a).pumpQueue = s.pumpQueue := rfl
@[simp] theorem setPc_pumpCount (a : Addr) : (s.setPc a).pumpCount = s.pumpCount := rfl

@[simp] theorem advance_V : s.advance.V = s.V := rfl
@[simp] theorem advance_pc : s.advance.pc = s.pc + 2 := rfl
@[simp] theorem advance_I : s.advance.I = s.I := rfl
@[simp] theorem advance_DT : s.advance.DT = s.DT := rfl
@[simp] theorem advance_ST : s.advance.ST = s.ST := rfl
@[simp] theorem advance_memory : s.advance.memory = s.memory := rfl
@[simp] theorem advance_stack : s.advance.stack = s.stack := rfl
@[simp] theorem advance_fb : s.advance.fb = s.fb := rfl
@[simp] theorem advance_status : s.advance.status = s.status := rfl
@[simp] theorem advance_faultRecord : s.advance.faultRecord = s.faultRecord := rfl
@[simp] theorem advance_flag : s.advance.flag = s.flag := rfl
@[simp] theorem advance_flagIx : s.advance.flagIx = s.flagIx := rfl
@[simp] theorem advance_stackDepth : s.advance.stackDepth = s.stackDepth := rfl
@[simp] theorem advance_log : s.advance.log = s.log := rfl
@[simp] theorem advance_shown : s.advance.shown = s.shown := rfl
@[simp] theorem advance_randomQueue : s.advance.randomQueue = s.randomQueue := rfl
@[simp] theorem advance_randomCount : s.advance.randomCount = s.randomCount := rfl
@[simp] theorem advance_pumpQueue : s.advance.pumpQueue = s.pumpQueue := rfl
@[simp] theorem advance_pumpCount : s.advance.pumpCount = s.pumpCount := rfl

@[simp] theorem skipIf_V (c : Bool) : (s.skipIf c).V = s.V := rfl
@[simp] theorem skipIf_pc (c : Bool) : (s.skipIf c).pc = s.pc + (if c then 4 else 2) := rfl
@[simp] theorem skipIf_I (c : Bool) : (s.skipIf c).I = s.I := rfl
@[simp] theorem skipIf_DT (c : Bool) : (s.skipIf c).DT = s.DT := rfl
@[simp] theorem skipIf_ST (c : Bool) : (s.skipIf c).ST = s.ST := rfl
@[simp] theorem skipIf_memory (c : Bool) : (s.skipIf c).memory = s.memory := rfl
@[simp] theorem skipIf_stack (c : Bool) : (s.skipIf c).stack = s.stack := rfl
@[simp] theorem skipIf_fb (c : Bool) : (s.skipIf c).fb = s.fb := rfl
@[simp] theorem skipIf_status (c : Bool) : (s.skipIf c).status = s.status := rfl
@[simp] theorem skipIf_faultRecord (c : Bool) : (s.skipIf c).faultRecord = s.faultRecord := rfl
@[simp] theorem skipIf_flag (c : Bool) : (s.skipIf c).flag = s.flag := rfl
@[simp] theorem skipIf_flagIx (c : Bool) : (s.skipIf c).flagIx = s.flagIx := rfl
@[simp] theorem skipIf_stackDepth (c : Bool) : (s.skipIf c).stackDepth = s.stackDepth := rfl
@[simp] theorem skipIf_log (c : Bool) : (s.skipIf c).log = s.log := rfl
@[simp] theorem skipIf_shown (c : Bool) : (s.skipIf c).shown = s.shown := rfl
@[simp] theorem skipIf_randomQueue (c : Bool) : (s.skipIf c).randomQueue = s.randomQueue := rfl
@[simp] theorem skipIf_randomCount (c : Bool) : (s.skipIf c).randomCount = s.randomCount := rfl
@[simp] theorem skipIf_pumpQueue (c : Bool) : (s.skipIf c).pumpQueue = s.pumpQueue := rfl
@[simp] theorem skipIf_pumpCount (c : Bool) : (s.skipIf c).pumpCount = s.pumpCount := rfl

@[simp] theorem setI_V (a : Addr) : (s.setI a).V = s.V := rfl
@[simp] theorem setI_pc (a : Addr) : (s.setI a).pc = s.pc := rfl
@[simp] theorem setI_I (a : Addr) : (s.setI a).I = a := rfl
@[simp] theorem setI_DT (a : Addr) : (s.setI a).DT = s.DT := rfl
@[simp] theorem setI_ST (a : Addr) : (s.setI a).ST = s.ST := rfl
@[simp] theorem setI_memory (a : Addr) : (s.setI a).memory = s.memory := rfl
@[simp] theorem setI_stack (a : Addr) : (s.setI a).stack = s.stack := rfl
@[simp] theorem setI_fb (a : Addr) : (s.setI a).fb = s.fb := rfl
@[simp] theorem setI_status (a : Addr) : (s.setI a).status = s.status := rfl
@[simp] theorem setI_faultRecord (a : Addr) : (s.setI a).faultRecord = s.faultRecord := rfl
@[simp] theorem setI_flag (a : Addr) : (s.setI a).flag = s.flag := rfl
@[simp] theorem setI_flagIx (a : Addr) : (s.setI a).flagIx = s.flagIx := rfl
@[simp] theorem setI_stackDepth (a : Addr) : (s.setI a).stackDepth = s.stackDepth := rfl
@[simp] theorem setI_log (a : Addr) : (s.setI a).log = s.log := rfl
@[simp] theorem setI_shown (a : Addr) : (s.setI a).shown = s.shown := rfl
@[simp] theorem setI_randomQueue (a : Addr) : (s.setI a).randomQueue = s.randomQueue := rfl
@[simp] theorem setI_randomCount (a : Addr) : (s.setI a).randomCount = s.randomCount := rfl
@[simp] theorem setI_pumpQueue (a : Addr) : (s.setI a).pumpQueue = s.pumpQueue := rfl
@[simp] theorem setI_pumpCount (a : Addr) : (s.setI a).pumpCount = s.pumpCount := rfl

@[simp] theorem setDT_V (v : Byte) : (s.setDT v).V = s.V := rfl
@[simp] theorem setDT_pc (v : Byte) : (s.setDT v).pc = s.pc := rfl
@[simp] theorem setDT_I (v : Byte) : (s.setDT v).I = s.I := rfl
@[simp] theorem setDT_DT (v : Byte) : (s.setDT v).DT = v := rfl
@[simp] theorem setDT_ST (v : Byte) : (s.setDT v).ST = s.ST := rfl
@[simp] theorem setDT_memory (v : Byte) : (s.setDT v).memory = s.memory := rfl
@[simp] theorem setDT_stack (v : Byte) : (s.setDT v).stack = s.stack := rfl
@[simp] theorem setDT_fb (v : Byte) : (s.setDT v).fb = s.fb := rfl
@[simp] theorem setDT_status (v : Byte) : (s.setDT v).status = s.status := rfl
@[simp] theorem setDT_faultRecord (v : Byte) : (s.setDT v).faultRecord = s.faultRecord := rfl
@[simp] theorem setDT_flag (v : Byte) : (s.setDT v).flag = s.flag := rfl
@[simp] theorem setDT_flagIx (v : Byte) : (s.setDT v).flagIx = s.flagIx := rfl
@[simp] theorem setDT_stackDepth (v : Byte) : (s.setDT v).stackDepth = s.stackDepth := rfl
@[simp] theorem setDT_log (v : Byte) : (s.setDT v).log = s.log := rfl
@[simp] theorem setDT_shown (v : Byte) : (s.setDT v).shown = s.shown := rfl
@[simp] theorem setDT_randomQueue (v : Byte) : (s.setDT v).randomQueue = s.randomQueue := rfl
@[simp] theorem setDT_randomCount (v : Byte) : (s.setDT v).randomCount = s.randomCount := rfl
@[simp] theorem setDT_pumpQueue (v : Byte) : (s.setDT v).pumpQueue = s.pumpQueue := rfl
@[simp] theorem setDT_pumpCount (v : Byte) : (s.setDT v).pumpCount = s.pumpCount := rfl

@[simp] theorem setST_V (v : Byte) : (s.setST v).V = s.V := rfl
@[simp] theorem setST_pc (v : Byte) : (s.setST v).pc = s.pc := rfl
@[simp] theorem setST_I (v : Byte) : (s.setST v).I = s.I := rfl
@[simp] theorem setST_DT (v : Byte) : (s.setST v).DT = s.DT := rfl
@[simp] theorem setST_ST (v : Byte) : (s.setST v).ST = v := rfl
@[simp] theorem setST_memory (v : Byte) : (s.setST v).memory = s.memory := rfl
@[simp] theorem setST_stack (v : Byte) : (s.setST v).stack = s.stack := rfl
@[simp] theorem setST_fb (v : Byte) : (s.setST v).fb = s.fb := rfl
@[simp] theorem setST_status (v : Byte) : (s.setST v).status = s.status := rfl
@[simp] theorem setST_faultRecord (v : Byte) : (s.setST v).faultRecord = s.faultRecord := rfl
@[simp] theorem setST_flag (v : Byte) : (s.setST v).flag = s.flag := rfl
@[simp] theorem setST_flagIx (v : Byte) : (s.setST v).flagIx = s.flagIx := rfl
@[simp] theorem setST_stackDepth (v : Byte) : (s.setST v).stackDepth = s.stackDepth := rfl
@[simp] theorem setST_log (v : Byte) : (s.setST v).log = s.log := rfl
@[simp] theorem setST_shown (v : Byte) : (s.setST v).shown = s.shown := rfl
@[simp] theorem setST_randomQueue (v : Byte) : (s.setST v).randomQueue = s.randomQueue := rfl
@[simp] theorem setST_randomCount (v : Byte) : (s.setST v).randomCount = s.randomCount := rfl
@[simp] theorem setST_pumpQueue (v : Byte) : (s.setST v).pumpQueue = s.pumpQueue := rfl
@[simp] theorem setST_pumpCount (v : Byte) : (s.setST v).pumpCount = s.pumpCount := rfl

@[simp] theorem storeBytes_V (b : Nat) (vs : List Byte) : (s.storeBytes b vs).V = s.V := rfl
@[simp] theorem storeBytes_pc (b : Nat) (vs : List Byte) : (s.storeBytes b vs).pc = s.pc := rfl
@[simp] theorem storeBytes_I (b : Nat) (vs : List Byte) : (s.storeBytes b vs).I = s.I := rfl
@[simp] theorem storeBytes_DT (b : Nat) (vs : List Byte) : (s.storeBytes b vs).DT = s.DT := rfl
@[simp] theorem storeBytes_ST (b : Nat) (vs : List Byte) : (s.storeBytes b vs).ST = s.ST := rfl
@[simp] theorem storeBytes_memory (b : Nat) (vs : List Byte) : (s.storeBytes b vs).memory = s.memory.store b vs := rfl
@[simp] theorem storeBytes_stack (b : Nat) (vs : List Byte) : (s.storeBytes b vs).stack = s.stack := rfl
@[simp] theorem storeBytes_fb (b : Nat) (vs : List Byte) : (s.storeBytes b vs).fb = s.fb := rfl
@[simp] theorem storeBytes_status (b : Nat) (vs : List Byte) : (s.storeBytes b vs).status = s.status := rfl
@[simp] theorem storeBytes_faultRecord (b : Nat) (vs : List Byte) : (s.storeBytes b vs).faultRecord = s.faultRecord := rfl
@[simp] theorem storeBytes_flag (b : Nat) (vs : List Byte) : (s.storeBytes b vs).flag = s.flag := rfl
@[simp] theorem storeBytes_flagIx (b : Nat) (vs : List Byte) : (s.storeBytes b vs).flagIx = s.flagIx := rfl
@[simp] theorem storeBytes_stackDepth (b : Nat) (vs : List Byte) : (s.storeBytes b vs).stackDepth = s.stackDepth := rfl
@[simp] theorem storeBytes_log (b : Nat) (vs : List Byte) : (s.storeBytes b vs).log = s.log := rfl
@[simp] theorem storeBytes_shown (b : Nat) (vs : List Byte) : (s.storeBytes b vs).shown = s.shown := rfl
@[simp] theorem storeBytes_randomQueue (b : Nat) (vs : List Byte) : (s.storeBytes b vs).randomQueue = s.randomQueue := rfl
@[simp] theorem storeBytes_randomCount (b : Nat) (vs : List Byte) : (s.storeBytes b vs).randomCount = s.randomCount := rfl
@[simp] theorem storeBytes_pumpQueue (b : Nat) (vs : List Byte) : (s.storeBytes b vs).pumpQueue = s.pumpQueue := rfl
@[simp] theorem storeBytes_pumpCount (b : Nat) (vs : List Byte) : (s.storeBytes b vs).pumpCount = s.pumpCount := rfl

@[simp] theorem push_V (a : Addr) : (s.push a).V = s.V := rfl
@[simp] theorem push_pc (a : Addr) : (s.push a).pc = s.pc := rfl
@[simp] theorem push_I (a : Addr) : (s.push a).I = s.I := rfl
@[simp] theorem push_DT (a : Addr) : (s.push a).DT = s.DT := rfl
@[simp] theorem push_ST (a : Addr) : (s.push a).ST = s.ST := rfl
@[simp] theorem push_memory (a : Addr) : (s.push a).memory = s.memory := rfl
@[simp] theorem push_stack (a : Addr) : (s.push a).stack = s.stack ++ [a] := rfl
@[simp] theorem push_fb (a : Addr) : (s.push a).fb = s.fb := rfl
@[simp] theorem push_status (a : Addr) : (s.push a).status = s.status := rfl
@[simp] theorem push_faultRecord (a : Addr) : (s.push a).faultRecord = s.faultRecord := rfl
@[simp] theorem push_flag (a : Addr) : (s.push a).flag = s.flag := rfl
@[simp] theorem push_flagIx (a : Addr) : (s.push a).flagIx = s.flagIx := rfl
@[simp] theorem push_stackDepth (a : Addr) : (s.push a).stackDepth = s.stackDepth := rfl
@[simp] theorem push_log (a : Addr) : (s.push a).log = s.log := rfl
@[simp] theorem push_shown (a : Addr) : (s.push a).shown = s.shown := rfl
@[simp] theorem push_randomQueue (a : Addr) : (s.push a).randomQueue = s.randomQueue := rfl
@[simp] theorem push_randomCount (a : Addr) : (s.push a).randomCount = s.randomCount := rfl
@[simp] theorem push_pumpQueue (a : Addr) : (s.push a).pumpQueue = s.pumpQueue := rfl
@[simp] theorem push_pumpCount (a : Addr) : (s.push a).pumpCount = s.pumpCount := rfl

@[simp] theorem setPixel_V (c : Fin 64) (r : Fin 32) (b : Bool) : (s.setPixel c r b).V = s.V := rfl
@[simp] theorem setPixel_pc (c : Fin 64) (r : Fin 32) (b : Bool) : (s.setPixel c r b).pc = s.pc := rfl
@[simp] theorem setPixel_I (c : Fin 64) (r : Fin 32) (b : Bool) : (s.setPixel c r b).I = s.I := rfl
@[simp] theorem setPixel_DT (c : Fin 64) (r : Fin 32) (b : Bool) : (s.setPixel c r b).DT = s.DT := rfl
@[simp] theorem setPixel_ST (c : Fin 64) (r : Fin 32) (b : Bool) : (s.setPixel c r b).ST = s.ST := rfl
@[simp] theorem setPixel_memory (c : Fin 64) (r : Fin 32) (b : Bool) : (s.setPixel c r b).memory = s.memory := rfl
@[simp] theorem setPixel_stack (c : Fin 64) (r : Fin 32) (b : Bool) : (s.setPixel c r b).stack = s.stack := rfl
@[simp] theorem setPixel_fb (c : Fin 64) (r : Fin 32) (b : Bool) : (s.setPixel c r b).fb = s.fb.set r (s.fb[r].set c b) := rfl
@[simp] theorem setPixel_status (c : Fin 64) (r : Fin 32) (b : Bool) : (s.setPixel c r b).status = s.status := rfl
@[simp] theorem setPixel_faultRecord (c : Fin 64) (r : Fin 32) (b : Bool) : (s.setPixel c r b).faultRecord = s.faultRecord := rfl
@[simp] theorem setPixel_flag (c : Fin 64) (r : Fin 32) (b : Bool) : (s.setPixel c r b).flag = s.flag := rfl
@[simp] theorem setPixel_flagIx (c : Fin 64) (r : Fin 32) (b : Bool) : (s.setPixel c r b).flagIx = s.flagIx := rfl
@[simp] theorem setPixel_stackDepth (c : Fin 64) (r : Fin 32) (b : Bool) : (s.setPixel c r b).stackDepth = s.stackDepth := rfl
@[simp] theorem setPixel_log (c : Fin 64) (r : Fin 32) (b : Bool) : (s.setPixel c r b).log = s.log := rfl
@[simp] theorem setPixel_shown (c : Fin 64) (r : Fin 32) (b : Bool) : (s.setPixel c r b).shown = s.shown := rfl
@[simp] theorem setPixel_randomQueue (c : Fin 64) (r : Fin 32) (b : Bool) : (s.setPixel c r b).randomQueue = s.randomQueue := rfl
@[simp] theorem setPixel_randomCount (c : Fin 64) (r : Fin 32) (b : Bool) : (s.setPixel c r b).randomCount = s.randomCount := rfl
@[simp] theorem setPixel_pumpQueue (c : Fin 64) (r : Fin 32) (b : Bool) : (s.setPixel c r b).pumpQueue = s.pumpQueue := rfl
@[simp] theorem setPixel_pumpCount (c : Fin 64) (r : Fin 32) (b : Bool) : (s.setPixel c r b).pumpCount = s.pumpCount := rfl

@[simp] theorem clearPixels_V : s.clearPixels.V = s.V := rfl
@[simp] theorem clearPixels_pc : s.clearPixels.pc = s.pc := rfl
@[simp] theorem clearPixels_I : s.clearPixels.I = s.I := rfl
@[simp] theorem clearPixels_DT : s.clearPixels.DT = s.DT := rfl
@[simp] theorem clearPixels_ST : s.clearPixels.ST = s.ST := rfl
@[simp] theorem clearPixels_memory : s.clearPixels.memory = s.memory := rfl
@[simp] theorem clearPixels_stack : s.clearPixels.stack = s.stack := rfl
@[simp] theorem clearPixels_fb : s.clearPixels.fb = Framebuffer.clear := rfl
@[simp] theorem clearPixels_status : s.clearPixels.status = s.status := rfl
@[simp] theorem clearPixels_faultRecord : s.clearPixels.faultRecord = s.faultRecord := rfl
@[simp] theorem clearPixels_flag : s.clearPixels.flag = s.flag := rfl
@[simp] theorem clearPixels_flagIx : s.clearPixels.flagIx = s.flagIx := rfl
@[simp] theorem clearPixels_stackDepth : s.clearPixels.stackDepth = s.stackDepth := rfl
@[simp] theorem clearPixels_log : s.clearPixels.log = s.log := rfl
@[simp] theorem clearPixels_shown : s.clearPixels.shown = s.shown := rfl
@[simp] theorem clearPixels_randomQueue : s.clearPixels.randomQueue = s.randomQueue := rfl
@[simp] theorem clearPixels_randomCount : s.clearPixels.randomCount = s.randomCount := rfl
@[simp] theorem clearPixels_pumpQueue : s.clearPixels.pumpQueue = s.pumpQueue := rfl
@[simp] theorem clearPixels_pumpCount : s.clearPixels.pumpCount = s.pumpCount := rfl

@[simp] theorem raise_V (c : Cause) (info : Nat) : (s.raise c info).V = s.V := rfl
@[simp] theorem raise_pc (c : Cause) (info : Nat) : (s.raise c info).pc = s.pc := rfl
@[simp] theorem raise_I (c : Cause) (info : Nat) : (s.raise c info).I = s.I := rfl
@[simp] theorem raise_DT (c : Cause) (info : Nat) : (s.raise c info).DT = s.DT := rfl
@[simp] theorem raise_ST (c : Cause) (info : Nat) : (s.raise c info).ST = s.ST := rfl
@[simp] theorem raise_memory (c : Cause) (info : Nat) : (s.raise c info).memory = s.memory := rfl
@[simp] theorem raise_stack (c : Cause) (info : Nat) : (s.raise c info).stack = s.stack := rfl
@[simp] theorem raise_fb (c : Cause) (info : Nat) : (s.raise c info).fb = s.fb := rfl
@[simp] theorem raise_status (c : Cause) (info : Nat) : (s.raise c info).status = .faulted c := rfl
@[simp] theorem raise_faultRecord (c : Cause) (info : Nat) : (s.raise c info).faultRecord = some ⟨c, s.pc, info⟩ := rfl
@[simp] theorem raise_flag (c : Cause) (info : Nat) : (s.raise c info).flag = s.flag := rfl
@[simp] theorem raise_flagIx (c : Cause) (info : Nat) : (s.raise c info).flagIx = s.flagIx := rfl
@[simp] theorem raise_stackDepth (c : Cause) (info : Nat) : (s.raise c info).stackDepth = s.stackDepth := rfl
@[simp] theorem raise_log (c : Cause) (info : Nat) : (s.raise c info).log = s.log := rfl
@[simp] theorem raise_shown (c : Cause) (info : Nat) : (s.raise c info).shown = s.shown := rfl
@[simp] theorem raise_randomQueue (c : Cause) (info : Nat) : (s.raise c info).randomQueue = s.randomQueue := rfl
@[simp] theorem raise_randomCount (c : Cause) (info : Nat) : (s.raise c info).randomCount = s.randomCount := rfl
@[simp] theorem raise_pumpQueue (c : Cause) (info : Nat) : (s.raise c info).pumpQueue = s.pumpQueue := rfl
@[simp] theorem raise_pumpCount (c : Cause) (info : Nat) : (s.raise c info).pumpCount = s.pumpCount := rfl

@[simp] theorem logEvent_V (e : LogEvent) : (s.logEvent e).V = s.V := rfl
@[simp] theorem logEvent_pc (e : LogEvent) : (s.logEvent e).pc = s.pc := rfl
@[simp] theorem logEvent_I (e : LogEvent) : (s.logEvent e).I = s.I := rfl
@[simp] theorem logEvent_DT (e : LogEvent) : (s.logEvent e).DT = s.DT := rfl
@[simp] theorem logEvent_ST (e : LogEvent) : (s.logEvent e).ST = s.ST := rfl
@[simp] theorem logEvent_memory (e : LogEvent) : (s.logEvent e).memory = s.memory := rfl
@[simp] theorem logEvent_stack (e : LogEvent) : (s.logEvent e).stack = s.stack := rfl
@[simp] theorem logEvent_fb (e : LogEvent) : (s.logEvent e).fb = s.fb := rfl
@[simp] theorem logEvent_status (e : LogEvent) : (s.logEvent e).status = s.status := rfl
@[simp] theorem logEvent_faultRecord (e : LogEvent) : (s.logEvent e).faultRecord = s.faultRecord := rfl
@[simp] theorem logEvent_flag (e : LogEvent) : (s.logEvent e).flag = s.flag := rfl
@[simp] theorem logEvent_flagIx (e : LogEvent) : (s.logEvent e).flagIx = s.flagIx := rfl
@[simp] theorem logEvent_stackDepth (e : LogEvent) : (s.logEvent e).stackDepth = s.stackDepth := rfl
@[simp] theorem logEvent_log (e : LogEvent) : (s.logEvent e).log = s.log ++ [e] := rfl
@[simp] theorem logEvent_shown (e : LogEvent) : (s.logEvent e).shown = s.shown := rfl
@[simp] theorem logEvent_randomQueue (e : LogEvent) : (s.logEvent e).randomQueue = s.randomQueue := rfl
@[simp] theorem logEvent_randomCount (e : LogEvent) : (s.logEvent e).randomCount = s.randomCount := rfl
@[simp] theorem logEvent_pumpQueue (e : LogEvent) : (s.logEvent e).pumpQueue = s.pumpQueue := rfl
@[simp] theorem logEvent_pumpCount (e : LogEvent) : (s.logEvent e).pumpCount = s.pumpCount := rfl

@[simp] theorem afterDraw_V : s.afterDraw.V = s.V := rfl
@[simp] theorem afterDraw_pc : s.afterDraw.pc = s.pc := rfl
@[simp] theorem afterDraw_I : s.afterDraw.I = s.I := rfl
@[simp] theorem afterDraw_DT : s.afterDraw.DT = s.DT := rfl
@[simp] theorem afterDraw_ST : s.afterDraw.ST = s.ST := rfl
@[simp] theorem afterDraw_memory : s.afterDraw.memory = s.memory := rfl
@[simp] theorem afterDraw_stack : s.afterDraw.stack = s.stack := rfl
@[simp] theorem afterDraw_fb : s.afterDraw.fb = s.fb := rfl
@[simp] theorem afterDraw_status : s.afterDraw.status = s.status := rfl
@[simp] theorem afterDraw_faultRecord : s.afterDraw.faultRecord = s.faultRecord := rfl
@[simp] theorem afterDraw_flag : s.afterDraw.flag = s.flag := rfl
@[simp] theorem afterDraw_flagIx : s.afterDraw.flagIx = s.flagIx := rfl
@[simp] theorem afterDraw_stackDepth : s.afterDraw.stackDepth = s.stackDepth := rfl
@[simp] theorem afterDraw_log : s.afterDraw.log = s.log := rfl
@[simp] theorem afterDraw_shown : s.afterDraw.shown = s.shown := rfl
@[simp] theorem afterDraw_randomQueue : s.afterDraw.randomQueue = s.randomQueue.tail := rfl
@[simp] theorem afterDraw_randomCount : s.afterDraw.randomCount = s.randomCount + 1 := rfl
@[simp] theorem afterDraw_pumpQueue : s.afterDraw.pumpQueue = s.pumpQueue := rfl
@[simp] theorem afterDraw_pumpCount : s.afterDraw.pumpCount = s.pumpCount := rfl

@[simp] theorem writeFlag_V (c : Bool) : (s.writeFlag c).V = s.V.set s.flagIx.toNat (bool2byte c) s.flagIx.isLt := rfl
@[simp] theorem writeFlag_pc (c : Bool) : (s.writeFlag c).pc = s.pc := rfl
@[simp] theorem writeFlag_I (c : Bool) : (s.writeFlag c).I = s.I := rfl
@[simp] theorem writeFlag_DT (c : Bool) : (s.writeFlag c).DT = s.DT := rfl
@[simp] theorem writeFlag_ST (c : Bool) : (s.writeFlag c).ST = s.ST := rfl
@[simp] theorem writeFlag_memory (c : Bool) : (s.writeFlag c).memory = s.memory := rfl
@[simp] theorem writeFlag_stack (c : Bool) : (s.writeFlag c).stack = s.stack := rfl
@[simp] theorem writeFlag_fb (c : Bool) : (s.writeFlag c).fb = s.fb := rfl
@[simp] theorem writeFlag_status (c : Bool) : (s.writeFlag c).status = s.status := rfl
@[simp] theorem writeFlag_faultRecord (c : Bool) : (s.writeFlag c).faultRecord = s.faultRecord := rfl
@[simp] theorem writeFlag_flag (c : Bool) : (s.writeFlag c).flag = s.flag := rfl
@[simp] theorem writeFlag_flagIx (c : Bool) : (s.writeFlag c).flagIx = s.flagIx := rfl
@[simp] theorem writeFlag_stackDepth (c : Bool) : (s.writeFlag c).stackDepth = s.stackDepth := rfl
@[simp] theorem writeFlag_log (c : Bool) : (s.writeFlag c).log = s.log := rfl
@[simp] theorem writeFlag_shown (c : Bool) : (s.writeFlag c).shown = s.shown := rfl
@[simp] theorem writeFlag_randomQueue (c : Bool) : (s.writeFlag c).randomQueue = s.randomQueue := rfl
@[simp] theorem writeFlag_randomCount (c : Bool) : (s.writeFlag c).randomCount = s.randomCount := rfl
@[simp] theorem writeFlag_pumpQueue (c : Bool) : (s.writeFlag c).pumpQueue = s.pumpQueue := rfl
@[simp] theorem writeFlag_pumpCount (c : Bool) : (s.writeFlag c).pumpCount = s.pumpCount := rfl

@[simp] theorem pump_V : s.pump.V = s.V := rfl
@[simp] theorem pump_pc : s.pump.pc = s.pc := rfl
@[simp] theorem pump_I : s.pump.I = s.I := rfl
@[simp] theorem pump_DT : s.pump.DT = s.DT := rfl
@[simp] theorem pump_ST : s.pump.ST = s.ST := rfl
@[simp] theorem pump_memory : s.pump.memory = s.memory := rfl
@[simp] theorem pump_stack : s.pump.stack = s.stack := rfl
@[simp] theorem pump_fb : s.pump.fb = s.fb := rfl
@[simp] theorem pump_status : s.pump.status = if s.nextOpen then .running else .stopped := rfl
@[simp] theorem pump_faultRecord : s.pump.faultRecord = s.faultRecord := rfl
@[simp] theorem pump_flag : s.pump.flag = s.flag := rfl
@[simp] theorem pump_flagIx : s.pump.flagIx = s.flagIx := rfl
@[simp] theorem pump_stackDepth : s.pump.stackDepth = s.stackDepth := rfl
@[simp] theorem pump_log : s.pump.log = s.log := rfl
@[simp] theorem pump_shown : s.pump.shown = some s.fb := rfl
@[simp] theorem pump_randomQueue : s.pump.randomQueue = s.randomQueue := rfl
@[simp] theorem pump_randomCount : s.pump.randomCount = s.randomCount := rfl
@[simp] theorem pump_pumpQueue : s.pump.pumpQueue = s.pumpQueue.tail := rfl
@[simp] theorem pump_pumpCount : s.pump.pumpCount = s.pumpCount + 1 := rfl

/-! What is read through the accessors is not changed by an update of another part. -/

@[simp] theorem writeReg_readByte (x : RegIx) (v : Byte) (k : Nat) : (s.writeReg x v).readByte k = s.readByte k := rfl
@[simp] theorem writeReg_getPixel (x : RegIx) (v : Byte) (i : Fin 64) (j : Fin 32) : (s.writeReg x v).getPixel i j = s.getPixel i j := rfl
@[simp] theorem writeReg_nextRandom (x : RegIx) (v : Byte) : (s.writeReg x v).nextRandom = s.nextRandom := rfl
@[simp] theorem writeReg_nextOpen (x : RegIx) (v : Byte) : (s.writeReg x v).nextOpen = s.nextOpen := rfl

@[simp] theorem setPc_readReg (a : Addr) (k : RegIx) : (s.setPc a).readReg k = s.readReg k := rfl
@[simp] theorem setPc_readByte (a : Addr) (k : Nat) : (s.setPc a).readByte k = s.readByte k := rfl
@[simp] theorem setPc_getPixel (a : Addr) (i : Fin 64) (j : Fin 32) : (s.setPc a).getPixel i j = s.getPixel i j := rfl
@[simp] theorem setPc_nextRandom (a : Addr) : (s.setPc a).nextRandom = s.nextRandom := rfl
@[simp] theorem setPc_nextOpen (a : Addr) : (s.setPc a).nextOpen = s.nextOpen := rfl

@[simp] theorem advance_readReg (k : RegIx) : s.advance.readReg k = s.readReg k := rfl
@[simp] theorem advance_readByte (k : Nat) : s.advance.readByte k = s.readByte k := rfl
@[simp] theorem advance_getPixel (i : Fin 64) (j : Fin 32) : s.advance.getPixel i j = s.getPixel i j := rfl
@[simp] theorem advance_nextRandom : s.advance.nextRandom = s.nextRandom := rfl
@[simp] theorem advance_nextOpen : s.advance.nextOpen = s.nextOpen := rfl

@[simp] theorem skipIf_readReg (c : Bool) (k : RegIx) : (s.skipIf c).readReg k = s.readReg k := rfl
@[simp] theorem skipIf_readByte (c : Bool) (k : Nat) : (s.skipIf c).readByte k = s.readByte k := rfl
@[simp] theorem skipIf_getPixel (c : Bool) (i : Fin 64) (j : Fin 32) : (s.skipIf c).getPixel i j = s.getPixel i j := rfl
@[simp] theorem skipIf_nextRandom (c : Bool) : (s.skipIf c).nextRandom = s.nextRandom := rfl
@[simp] theorem skipIf_nextOpen (c : Bool) : (s.skipIf c).nextOpen = s.nextOpen := rfl

@[simp] theorem setI_readReg (a : Addr) (k : RegIx) : (s.setI a).readReg k = s.readReg k := rfl
@[simp] theorem setI_readByte (a : Addr) (k : Nat) : (s.setI a).readByte k = s.readByte k := rfl
@[simp] theorem setI_getPixel (a : Addr) (i : Fin 64) (j : Fin 32) : (s.setI a).getPixel i j = s.getPixel i j := rfl
@[simp] theorem setI_nextRandom (a : Addr) : (s.setI a).nextRandom = s.nextRandom := rfl
@[simp] theorem setI_nextOpen (a : Addr) : (s.setI a).nextOpen = s.nextOpen := rfl

@[simp] theorem setDT_readReg (v : Byte) (k : RegIx) : (s.setDT v).readReg k = s.readReg k := rfl
@[simp] theorem setDT_readByte (v : Byte) (k : Nat) : (s.setDT v).readByte k = s.readByte k := rfl
@[simp] theorem setDT_getPixel (v : Byte) (i : Fin 64) (j : Fin 32) : (s.setDT v).getPixel i j = s.getPixel i j := rfl
@[simp] theorem setDT_nextRandom (v : Byte) : (s.setDT v).nextRandom = s.nextRandom := rfl
@[simp] theorem setDT_nextOpen (v : Byte) : (s.setDT v).nextOpen = s.nextOpen := rfl

@[simp] theorem setST_readReg (v : Byte) (k : RegIx) : (s.setST v).readReg k = s.readReg k := rfl
@[simp] theorem setST_readByte (v : Byte) (k : Nat) : (s.setST v).readByte k = s.readByte k := rfl
@[simp] theorem setST_getPixel (v : Byte) (i : Fin 64) (j : Fin 32) : (s.setST v).getPixel i j = s.getPixel i j := rfl
@[simp] theorem setST_nextRandom (v : Byte) : (s.setST v).nextRandom = s.nextRandom := rfl
@[simp] theorem setST_nextOpen (v : Byte) : (s.setST v).nextOpen = s.nextOpen := rfl

@[simp] theorem storeBytes_readReg (b : Nat) (vs : List Byte) (k : RegIx) : (s.storeBytes b vs).readReg k = s.readReg k := rfl
@[simp] theorem storeBytes_getPixel (b : Nat) (vs : List Byte) (i : Fin 64) (j : Fin 32) : (s.storeBytes b vs).getPixel i j = s.getPixel i j := rfl
@[simp] theorem storeBytes_nextRandom (b : Nat) (vs : List Byte) : (s.storeBytes b vs).nextRandom = s.nextRandom := rfl
@[simp] theorem storeBytes_nextOpen (b : Nat) (vs : List Byte) : (s.storeBytes b vs).nextOpen = s.nextOpen := rfl

@[simp] theorem push_readReg (a : Addr) (k : RegIx) : (s.push a).readReg k = s.readReg k := rfl
@[simp] theorem push_readByte (a : Addr) (k : Nat) : (s.push a).readByte k = s.readByte k := rfl
@[simp] theorem push_getPixel (a : Addr) (i : Fin 64) (j : Fin 32) : (s.push a).getPixel i j = s.getPixel i j := rfl
@[simp] theorem push_nextRandom (a : Addr) : (s.push a).nextRandom = s.nextRandom := rfl
@[simp] theorem push_nextOpen (a : Addr) : (s.push a).nextOpen = s.nextOpen := rfl

@[simp] theorem setPixel_readReg (c : Fin 64) (r : Fin 32) (b : Bool) (k : RegIx) : (s.setPixel c r b).readReg k = s.readReg k := rfl
@[simp] theorem setPixel_readByte (c : Fin 64) (r : Fin 32) (b : Bool) (k : Nat) : (s.setPixel c r b).readByte k = s.readByte k := rfl
@[simp] theorem setPixel_nextRandom (c : Fin 64) (r : Fin 32) (b : Bool) : (s.setPixel c r b).nextRandom = s.nextRandom := rfl
@[simp] theorem setPixel_nextOpen (c : Fin 64) (r : Fin 32) (b : Bool) : (s.setPixel c r b).nextOpen = s.nextOpen := rfl

@[simp] theorem clearPixels_readReg (k : RegIx) : s.clearPixels.readReg k = s.readReg k := rfl
@[simp] theorem clearPixels_readByte (k : Nat) : s.clearPixels.readByte k = s.readByte k := rfl
@[simp] theorem clearPixels_nextRandom : s.clearPixels.nextRandom = s.nextRandom := rfl
@[simp] theorem clearPixels_nextOpen : s.clearPixels.nextOpen = s.nextOpen := rfl

@[simp] theorem raise_readReg (c : Cause) (info : Nat) (k : RegIx) : (s.raise c info).readReg k = s.readReg k := rfl
@[simp] theorem raise_readByte (c : Cause) (info : Nat) (k : Nat) : (s.raise c info).readByte k = s.readByte k := rfl
@[simp] theorem raise_getPixel (c : Cause) (info : Nat) (i : Fin 64) (j : Fin 32) : (s.raise c info).getPixel i j = s.getPixel i j := rfl
@[simp] theorem raise_nextRandom (c : Cause) (info : Nat) : (s.raise c info).nextRandom = s.nextRandom := rfl
@[simp] theorem raise_nextOpen (c : Cause) (info : Nat) : (s.raise c info).nextOpen = s.nextOpen := rfl

@[simp] theorem logEvent_readReg (e : LogEvent) (k : RegIx) : (s.logEvent e).readReg k = s.readReg k := rfl
@[simp] theorem logEvent_readByte (e : LogEvent) (k : Nat) : (s.logEvent e).readByte k = s.readByte k := rfl
@[simp] theorem logEvent_getPixel (e : LogEvent) (i : Fin 64) (j : Fin 32) : (s.logEvent e).getPixel i j = s.getPixel i j := rfl
@[simp] theorem logEvent_nextRandom (e : LogEvent) : (s.logEvent e).nextRandom = s.nextRandom := rfl
@[simp] theorem logEvent_nextOpen (e : LogEvent) : (s.logEvent e).nextOpen = s.nextOpen := rfl

@[simp] theorem afterDraw_readReg (k : RegIx) : s.afterDraw.readReg k = s.readReg k := rfl
@[simp] theorem afterDraw_readByte (k : Nat) : s.afterDraw.readByte k = s.readByte k := rfl
@[simp] theorem afterDraw_getPixel (i : Fin 64) (j : Fin 32) : s.afterDraw.getPixel i j = s.getPixel i j := rfl
@[simp] theorem afterDraw_nextOpen : s.afterDraw.nextOpen = s.nextOpen := rfl

@[simp] theorem writeFlag_readByte (c : Bool) (k : Nat) : (s.writeFlag c).readByte k = s.readByte k := rfl
@[simp] theorem writeFlag_getPixel (c : Bool) (i : Fin 64) (j : Fin 32) : (s.writeFlag c).getPixel i j = s.getPixel i j := rfl
@[simp] theorem writeFlag_nextRandom (c : Bool) : (s.writeFlag c).nextRandom = s.nextRandom := rfl
@[simp] theorem writeFlag_nextOpen (c : Bool) : (s.writeFlag c).nextOpen = s.nextOpen := rfl

@[simp] theorem pump_readReg (k : RegIx) : s.pump.readReg k = s.readReg k := rfl
@[simp] theorem pump_readByte (k : Nat) : s.pump.readByte k = s.readByte k := rfl
@[simp] theorem pump_getPixel (i : Fin 64) (j : Fin 32) : s.pump.getPixel i j = s.getPixel i j := rfl
@[simp] theorem pump_nextRandom : s.pump.nextRandom = s.nextRandom := rfl

end Sys2Proof.Machine
end

