-- ==== Sys2Proof/Laws/Ops.lean ====
section
/-! SUPPORT. What the shared operations do, said once: registers, pixels, blocks of memory, the
range check, the stack and the fetch. -/

namespace Sys2Proof.Machine

/-- A register read after a register write (R20: registers are independent). -/
@[simp] theorem readReg_writeReg (s : State) (x y : RegIx) (v : Byte) :
    (s.writeReg x v).readReg y = if y = x then v else s.readReg y := by
  simp only [State.readReg, State.writeReg, Vector.getElem_set]
  by_cases h : y = x
  · simp [h]
  · have : x.toNat ≠ y.toNat := fun e => h (BitVec.eq_of_toNat_eq e.symm)
    simp [h, this]

@[simp] theorem readReg_writeFlag (s : State) (y : RegIx) (c : Bool) :
    (s.writeFlag c).readReg y = if y = s.flagIx then bool2byte c else s.readReg y :=
  readReg_writeReg s s.flagIx y _

/-- A pixel read after a pixel write (R40, R41). -/
@[simp] theorem getPixel_setPixel (s : State) (c i : Fin 64) (r j : Fin 32) (b : Bool) :
    (s.setPixel c r b).getPixel i j = if i = c ∧ j = r then b else s.getPixel i j := by
  simp only [State.getPixel, State.setPixel]
  grind

@[simp] theorem getPixel_clearPixels (s : State) (i : Fin 64) (j : Fin 32) :
    s.clearPixels.getPixel i j = false := by
  simp [State.getPixel, State.clearPixels, Framebuffer.clear]

/-- The range check, as an inequality (R70). -/
@[simp] theorem blockInRange_iff (base len : Nat) :
    blockInRange base len = true ↔ len = 0 ∨ base + len ≤ 4096 := by
  simp [blockInRange, Config.lastAddr]

/-- What a guarded access does, in range and out of range (R70, R203). -/
theorem touching_inRange {s : State} {base len : Nat} {k : State → State}
    (h : len = 0 ∨ base + len ≤ 4096) : s.touching base len k = k s := by
  rw [State.touching, if_pos ((blockInRange_iff base len).2 h)]

theorem touching_outOfRange {s : State} {base len : Nat} {k : State → State} (h0 : 0 < len)
    (h : 4096 < base + len) :
    s.touching base len k = s.raise .addressOutOfRange (max base 4096) := by
  rw [State.touching, if_neg (by rw [blockInRange_iff]; omega)]
  rfl

/-- A guarded access ends in one of two ways. -/
theorem touching_cases (s : State) (base len : Nat) (k : State → State) :
    ((len = 0 ∨ base + len ≤ 4096) ∧ s.touching base len k = k s) ∨
    (0 < len ∧ 4096 < base + len ∧
      s.touching base len k = s.raise .addressOutOfRange (max base 4096)) := by
  by_cases h : len = 0 ∨ base + len ≤ 4096
  · exact .inl ⟨h, touching_inRange h⟩
  · exact .inr ⟨by omega, by omega, touching_outOfRange (by omega) (by omega)⟩

/-- A byte read after a block was stored (R54, R57). -/
theorem readByte_storeBytes (s : State) (base a : Nat) (vs : List Byte) :
    (s.storeBytes base vs).readByte a =
      if base ≤ a then (vs[a - base]?).getD (s.readByte a) else s.readByte a :=
  Memory.read_store s.memory base a vs

/-- Outside the stored block every byte reads as before. -/
theorem readByte_storeBytes_of_outside {s : State} {base a : Nat} {vs : List Byte}
    (h : a < base ∨ base + vs.length ≤ a) :
    (s.storeBytes base vs).readByte a = s.readByte a := by
  rw [readByte_storeBytes]
  by_cases hb : base ≤ a
  · rw [if_pos hb, List.getElem?_eq_none (by omega)]; rfl
  · rw [if_neg hb]

@[simp] theorem length_loadBytes (s : State) (base len : Nat) :
    (s.loadBytes base len).length = len := by simp [State.loadBytes]

theorem getElem?_loadBytes {s : State} {base len k : Nat} (h : k < len) :
    (s.loadBytes base len)[k]? = some (s.readByte (base + k)) := by
  simp [State.loadBytes, h]

theorem loadBytes_succ (s : State) (base n : Nat) :
    s.loadBytes base (n + 1) = s.loadBytes base n ++ [s.readByte (base + n)] := by
  simp [State.loadBytes, List.range_succ]

@[simp] theorem length_regsUpTo (s : State) (x : RegIx) :
    (s.regsUpTo x).length = x.toNat + 1 := by simp [State.regsUpTo]

theorem getElem?_regsUpTo {s : State} {x : RegIx} {k : Nat} (h : k ≤ x.toNat) :
    (s.regsUpTo x)[k]? = some (s.readReg (BitVec.ofNat 4 k)) := by
  simp [State.regsUpTo, Nat.lt_succ_of_le h]

@[simp] theorem length_decimalDigits (v : Byte) : (decimalDigits v).length = 3 := rfl

/-- Writing registers at rising indices changes `V` only. -/
theorem writeRegs_eq (s : State) (k : Nat) (vs : List Byte) :
    s.writeRegs k vs = { s with V := (s.writeRegs k vs).V } := by
  induction vs generalizing s k with
  | nil => rfl
  | cons v vs ih => rw [State.writeRegs, ih]; rfl

/-- What register `y` holds after registers were written at rising indices from `k` (R166). -/
theorem readReg_writeRegs (s : State) (k : Nat) (vs : List Byte) (y : RegIx)
    (h : k + vs.length ≤ 16) :
    (s.writeRegs k vs).readReg y =
      if k ≤ y.toNat then (vs[y.toNat - k]?).getD (s.readReg y) else s.readReg y := by
  induction vs generalizing s k with
  | nil => simp [State.writeRegs]
  | cons v vs ih =>
    simp only [List.length_cons] at h
    rw [State.writeRegs, ih _ _ (by omega), readReg_writeReg]
    have hy := y.isLt
    have hk : (BitVec.ofNat 4 k).toNat = k := by simp; omega
    by_cases h1 : y.toNat = k
    · have he : y = BitVec.ofNat 4 k := BitVec.eq_of_toNat_eq (by omega)
      have hn : ¬ k + 1 ≤ y.toNat := by omega
      have h2 : y.toNat - k = 0 := by omega
      have h3 : k ≤ y.toNat := by omega
      rw [if_neg hn, if_pos he, if_pos h3, h2]; rfl
    · have he : y ≠ BitVec.ofNat 4 k := fun e => h1 (by rw [e, hk])
      by_cases h2 : k + 1 ≤ y.toNat
      · have h3 : y.toNat - k = y.toNat - (k + 1) + 1 := by omega
        have h4 : k ≤ y.toNat := by omega
        rw [if_pos h2, if_pos h4, if_neg he, h3, List.getElem?_cons_succ]
      · have h4 : ¬ k ≤ y.toNat := by omega
        rw [if_neg h2, if_neg h4, if_neg he]

/-- What register `y` holds after 16 bytes of memory were loaded (R166). -/
theorem readReg_writeRegs_loadBytes (s : State) (base : Nat) (y : RegIx) :
    (s.writeRegs 0 (s.loadBytes base 16)).readReg y = s.readByte (base + y.toNat) := by
  have hy : y.toNat < 16 := y.isLt
  rw [readReg_writeRegs _ _ _ _ (by simp), Nat.sub_zero, getElem?_loadBytes hy]
  simp

/-- `pop` on a stack that ends in `a` (R9, R120). -/
theorem pop_of_append {s : State} {rest : List Addr} {a : Addr} (h : s.stack = rest ++ [a]) :
    s.pop = some (a, { s with stack := rest }) := by
  simp [State.pop, h]

theorem pop_of_empty {s : State} (h : s.stack = []) : s.pop = none := by
  simp [State.pop, h]

theorem stackFull_iff (s : State) : s.stackFull = true ↔ s.stackDepth = some s.stack.length := by
  simp [State.stackFull]

/-- What a fetch gives (R56, R101). -/
theorem fetch_inRange {s : State} (h : s.pc.toNat ≤ 4094) :
    s.fetch = some (s.readByte s.pc.toNat, s.readByte (s.pc.toNat + 1)) := by
  rw [State.fetch, if_pos (by rw [blockInRange_iff]; omega)]

theorem fetch_outOfRange {s : State} (h : 4094 < s.pc.toNat) : s.fetch = none := by
  rw [State.fetch, if_neg (by rw [blockInRange_iff]; omega)]

theorem fetch_eq_some {s : State} {b0 b1 : Byte} (h : s.fetch = some (b0, b1)) :
    s.pc.toNat ≤ 4094 ∧ b0 = s.readByte s.pc.toNat ∧ b1 = s.readByte (s.pc.toNat + 1) := by
  by_cases hp : s.pc.toNat ≤ 4094
  · rw [fetch_inRange hp] at h
    simp only [Option.some.injEq, Prod.mk.injEq] at h
    exact ⟨hp, h.1.symm, h.2.symm⟩
  · rw [fetch_outOfRange (by omega)] at h; cases h

@[simp] theorem toNat_zextAddr (nnn : Addr12) : (zextAddr nnn).toNat = nnn.toNat := by
  have := nnn.isLt
  simp [zextAddr]; omega

@[simp] theorem toNat_zextByte (v : Byte) : (zextByte v).toNat = v.toNat := by
  have := v.isLt
  simp [zextByte]; omega

end Sys2Proof.Machine
end

