-- ==== Sys2Proof/Laws/Draw.lean ====
section
/-! SUPPORT. What the draw controller does, said once: which pixels a sprite covers, what becomes of
them, and what the flag holds afterwards (spec/44_draw.md R172 to R178). -/

namespace Sys2Proof.Machine

/-- The sprite column that lands on screen column `i` when the left edge is at `cx` (R173). -/
def colAt (cx : Byte) (i : Fin 64) : Nat := (i.val + 256 - cx.toNat) % 64

/-- The sprite row that lands on screen row `j` when the top edge is at `cy` (R173). -/
def rowAt (cy : Byte) (j : Fin 32) : Nat := (j.val + 256 - cy.toNat) % 32

theorem wrapCol_eq_iff {cx : Byte} {col : Nat} (h : col < 64) (i : Fin 64) :
    i = wrapCol cx col ↔ colAt cx i = col := by
  have := cx.isLt; have := i.isLt
  simp only [Fin.ext_iff, wrapCol, Fin.ofNat, colAt]
  omega

theorem wrapRow_eq_iff {cy : Byte} {row : Nat} (h : row < 32) (j : Fin 32) :
    j = wrapRow cy row ↔ rowAt cy j = row := by
  have := cy.isLt; have := j.isLt
  simp only [Fin.ext_iff, wrapRow, Fin.ofNat, rowAt]
  omega

@[simp] theorem getPixel_drawPixel (s : State) (c i : Fin 64) (r j : Fin 32) (bit : Bool) :
    (s.drawPixel c r bit).getPixel i j =
      if i = c ∧ j = r then s.getPixel c r ^^ bit else s.getPixel i j := by
  simp [State.drawPixel]

@[simp] theorem readReg_drawPixel (s : State) (c : Fin 64) (r : Fin 32) (bit : Bool) (k : RegIx) :
    (s.drawPixel c r bit).readReg k =
      if k = s.flagIx then bool2byte (collision (s.getPixel c r) bit) else s.readReg k := by
  rw [State.drawPixel, readReg_writeFlag]; rfl

theorem drawPixel_eq (s : State) (c : Fin 64) (r : Fin 32) (bit : Bool) :
    s.drawPixel c r bit =
      { s with V := (s.drawPixel c r bit).V, fb := (s.drawPixel c r bit).fb } := rfl

/-- The first `k` pixels of a row. -/
def drawCols (s : State) (cx cy : Byte) (row : Nat) (b : Byte) (k : Nat) : State :=
  (List.range k).foldl
    (fun t col => t.drawPixel (wrapCol cx col) (wrapRow cy row) (spriteBit b col)) s

theorem drawCols_succ (s : State) (cx cy : Byte) (row : Nat) (b : Byte) (k : Nat) :
    drawCols s cx cy row b (k + 1) =
      (drawCols s cx cy row b k).drawPixel (wrapCol cx k) (wrapRow cy row) (spriteBit b k) := by
  simp [drawCols, List.range_succ]

theorem drawRow_eq_drawCols (s : State) (cx cy : Byte) (row : Nat) (b : Byte) :
    s.drawRow cx cy row b = drawCols s cx cy row b 8 := rfl

theorem drawCols_eq (s : State) (cx cy : Byte) (row : Nat) (b : Byte) (k : Nat) :
    drawCols s cx cy row b k =
      { s with V := (drawCols s cx cy row b k).V, fb := (drawCols s cx cy row b k).fb } := by
  induction k with
  | zero => rfl
  | succ k ih =>
    rw [drawCols_succ, drawPixel_eq]
    generalize drawCols s cx cy row b k = t at ih ⊢
    rw [ih]

theorem drawCols_flagIx (s : State) (cx cy : Byte) (row : Nat) (b : Byte) (k : Nat) :
    (drawCols s cx cy row b k).flagIx = s.flagIx := by rw [drawCols_eq]; rfl

theorem getPixel_drawCols (s : State) (cx cy : Byte) (row : Nat) (b : Byte) {k : Nat} (hk : k ≤ 64)
    (i : Fin 64) (j : Fin 32) :
    (drawCols s cx cy row b k).getPixel i j =
      (s.getPixel i j ^^
        (decide (j = wrapRow cy row) && decide (colAt cx i < k) && spriteBit b (colAt cx i))) := by
  induction k with
  | zero => simp [drawCols]
  | succ k ih =>
    rw [drawCols_succ, getPixel_drawPixel, ih (by omega)]
    by_cases hi : i = wrapCol cx k
    · have hc := (wrapCol_eq_iff (by omega) i).1 hi
      by_cases hj : j = wrapRow cy row
      · subst hi hj; simp [hc]
        rw [ih (by omega)]; simp [hc]
      · simp [hj]
    · have hc : colAt cx i ≠ k := fun e => hi ((wrapCol_eq_iff (by omega) i).2 e)
      have : colAt cx i < k + 1 ↔ colAt cx i < k := by omega
      simp [hi, this]

theorem readReg_drawCols_of_ne (s : State) (cx cy : Byte) (row : Nat) (b : Byte) (k : Nat)
    {r : RegIx} (hr : r ≠ s.flagIx) : (drawCols s cx cy row b k).readReg r = s.readReg r := by
  induction k with
  | zero => rfl
  | succ k ih => rw [drawCols_succ, readReg_drawPixel, drawCols_flagIx, if_neg hr, ih]

/-- One row changes `V` and `fb` only. -/
theorem drawRow_eq (s : State) (cx cy : Byte) (row : Nat) (b : Byte) :
    s.drawRow cx cy row b =
      { s with V := (s.drawRow cx cy row b).V, fb := (s.drawRow cx cy row b).fb } :=
  drawCols_eq s cx cy row b 8

@[simp] theorem drawRow_flagIx (s : State) (cx cy : Byte) (row : Nat) (b : Byte) :
    (s.drawRow cx cy row b).flagIx = s.flagIx := drawCols_flagIx s cx cy row b 8

/-- The pixels after one row: those it covers are toggled where the sprite bit is 1 (R175). -/
theorem getPixel_drawRow (s : State) (cx cy : Byte) (row : Nat) (b : Byte) (i : Fin 64)
    (j : Fin 32) :
    (s.drawRow cx cy row b).getPixel i j =
      (s.getPixel i j ^^
        (decide (j = wrapRow cy row) && decide (colAt cx i < 8) && spriteBit b (colAt cx i))) :=
  getPixel_drawCols s cx cy row b (by omega) i j

theorem readReg_drawRow_of_ne (s : State) (cx cy : Byte) (row : Nat) (b : Byte) {r : RegIx}
    (hr : r ≠ s.flagIx) : (s.drawRow cx cy row b).readReg r = s.readReg r :=
  readReg_drawCols_of_ne s cx cy row b 8 hr

/-- The flag after one row is the collision of its last pixel (R174). -/
theorem flag_drawRow (s : State) (cx cy : Byte) (row : Nat) (b : Byte) :
    (s.drawRow cx cy row b).readReg s.flagIx =
      bool2byte (collision (s.getPixel (wrapCol cx 7) (wrapRow cy row)) (spriteBit b 7)) := by
  have hc := (wrapCol_eq_iff (cx := cx) (col := 7) (by omega) (wrapCol cx 7)).1 rfl
  rw [drawRow_eq_drawCols, drawCols_succ, readReg_drawPixel, drawCols_flagIx, if_pos rfl,
    getPixel_drawCols _ _ _ _ _ (by omega)]
  simp [hc]

/-- Drawing changes `V` and `fb` only. -/
theorem drawRows_eq (s : State) (cx cy : Byte) (row : Nat) (bs : List Byte) :
    s.drawRows cx cy row bs =
      { s with V := (s.drawRows cx cy row bs).V, fb := (s.drawRows cx cy row bs).fb } := by
  induction bs generalizing s row with
  | nil => rfl
  | cons b bs ih => rw [State.drawRows, ih, drawRow_eq]

theorem readReg_drawRows_of_ne (s : State) (cx cy : Byte) (row : Nat) (bs : List Byte) {r : RegIx}
    (hr : r ≠ s.flagIx) : (s.drawRows cx cy row bs).readReg r = s.readReg r := by
  induction bs generalizing s row with
  | nil => rfl
  | cons b bs ih => rw [State.drawRows, ih, readReg_drawRow_of_ne _ _ _ _ _ hr]; simpa using hr

/-- The sprite bit on pixel (`i`, `j`): false outside the rows and columns the sprite covers. -/
def spriteAt (cx cy : Byte) (row : Nat) (bs : List Byte) (i : Fin 64) (j : Fin 32) : Bool :=
  decide (colAt cx i < 8) && decide (row ≤ rowAt cy j) &&
    (bs[rowAt cy j - row]?).any (fun b => spriteBit b (colAt cx i))

/-- The sprite bit on a pixel when the sprite is the `n` bytes of memory from `base` on (R172). -/
theorem spriteAt_loadBytes (s : State) (cx cy : Byte) (base n : Nat) (i : Fin 64) (j : Fin 32) :
    spriteAt cx cy 0 (s.loadBytes base n) i j =
      (decide (colAt cx i < 8) && decide (rowAt cy j < n) &&
        spriteBit (s.readByte (base + rowAt cy j)) (colAt cx i)) := by
  unfold spriteAt
  by_cases h : rowAt cy j < n
  · rw [Nat.sub_zero, getElem?_loadBytes h]; simp [h]
  · rw [List.getElem?_eq_none (by simp; omega)]; simp [h]

/-- The pixels after a sprite: `old xor bit` where the sprite covers, and as before elsewhere
(R172, R175). -/
theorem getPixel_drawRows (s : State) (cx cy : Byte) (row : Nat) (bs : List Byte)
    (h : row + bs.length ≤ 32) (i : Fin 64) (j : Fin 32) :
    (s.drawRows cx cy row bs).getPixel i j = (s.getPixel i j ^^ spriteAt cx cy row bs i j) := by
  induction bs generalizing s row with
  | nil => simp [State.drawRows, spriteAt]
  | cons b bs ih =>
    simp only [List.length_cons] at h
    rw [State.drawRows, ih _ _ (by omega), getPixel_drawRow, Bool.xor_assoc]
    congr 1
    have hj := wrapRow_eq_iff (cy := cy) (row := row) (by omega) j
    by_cases h1 : rowAt cy j = row
    · simp [spriteAt, hj.2 h1]
      rw [hj.2 h1] at h1
      simp [h1]
    · have hne : j ≠ wrapRow cy row := fun e => h1 (hj.1 e)
      by_cases h2 : row + 1 ≤ rowAt cy j
      · have h3 : rowAt cy j - row = rowAt cy j - (row + 1) + 1 := by omega
        have h4 : row ≤ rowAt cy j := by omega
        simp [spriteAt, hne, h2, h3, h4]
      · have h4 : ¬ row ≤ rowAt cy j := by omega
        simp [spriteAt, hne, h2, h4]

/-- The flag after a sprite of at least one row: the collision of the last pixel of the last row,
as that pixel was before the instruction (R174, R175). -/
theorem flag_drawRows (s : State) (cx cy : Byte) (row : Nat) (bs : List Byte) (b : Byte)
    (h : row + bs.length < 32) :
    (s.drawRows cx cy row (bs ++ [b])).readReg s.flagIx =
      bool2byte (collision (s.getPixel (wrapCol cx 7) (wrapRow cy (row + bs.length)))
        (spriteBit b 7)) := by
  induction bs generalizing s row with
  | nil => simpa [State.drawRows] using flag_drawRow s cx cy row b
  | cons b' bs ih =>
    simp only [List.length_cons] at h
    rw [List.cons_append, State.drawRows, ← drawRow_flagIx s cx cy row b', ih _ _ (by omega),
      getPixel_drawRow]
    have hw : row + 1 + bs.length = row + (b' :: bs).length := by simp; omega
    have hne : wrapRow cy (row + (b' :: bs).length) ≠ wrapRow cy row := by
      rw [Ne, Fin.ext_iff]; simp only [wrapRow, Fin.ofNat, List.length_cons]; omega
    rw [hw]; simp only [decide_eq_false hne, Bool.false_and, Bool.xor_false]

end Sys2Proof.Machine
end

