-- ==== Sys2Proof/Laws/PerInstr.lean ====
section
/-! SUPPORT. One fact about every instruction as syntax: its word matches the mask and match of its
row in the opcode table (spec/30_encoding.md R86). -/

namespace Sys2Proof.Laws.MatchesRow

/-- The mask of an instruction's row (R86). -/
def rowMask : Instr → Word16
  | .cls | .ret => 0xFFFF
  | .call _ | .jp _ | .seti _ | .jprel _ => 0xF000
  | .ldi _ _ | .addi _ _ | .seqi _ _ | .snei _ _ | .rnd _ _ | .drw _ _ _ => 0xF000
  | .seq _ _ | .sne _ _ | .mov _ _ | .or _ _ | .and _ _ | .xor _ _ => 0xF00F
  | .add _ _ | .sub _ _ | .subr _ _ | .shr _ _ | .shl _ _ => 0xF00F
  | .skp _ | .sknp _ | .gdt _ | .sdt _ | .sst _ | .iadd _ | .wkey _ => 0xF0FF
  | .font _ | .bcd _ | .stm _ | .ldm _ => 0xF0FF
  | .unrecognised _ _ _ _ => 0x0000

/-- The match of an instruction's row (R86). -/
def rowMatch : Instr → Word16
  | .cls => 0x00E0
  | .ret => 0x00EE
  | .call _ => 0x0000
  | .jp _ => 0x1000
  | .ldi _ _ => 0x6000
  | .addi _ _ => 0x7000
  | .seqi _ _ => 0x3000
  | .snei _ _ => 0x4000
  | .seq _ _ => 0x5000
  | .sne _ _ => 0x9000
  | .mov _ _ => 0x8000
  | .or _ _ => 0x8001
  | .and _ _ => 0x8002
  | .xor _ _ => 0x8003
  | .add _ _ => 0x8004
  | .sub _ _ => 0x8005
  | .subr _ _ => 0x8007
  | .shr _ _ => 0x8006
  | .shl _ _ => 0x800E
  | .seti _ => 0xA000
  | .jprel _ => 0xB000
  | .rnd _ _ => 0xC000
  | .drw _ _ _ => 0xD000
  | .skp _ => 0xE09E
  | .sknp _ => 0xE0A1
  | .gdt _ => 0xF007
  | .sdt _ => 0xF015
  | .sst _ => 0xF018
  | .iadd _ => 0xF01E
  | .wkey _ => 0xF00A
  | .font _ => 0xF029
  | .bcd _ => 0xF033
  | .stm _ => 0xF055
  | .ldm _ => 0xF065
  | .unrecognised _ _ _ _ => 0x0000

/-- The word of an instruction matches its row: `w & mask = match` (R86). -/
def Statement (i : Instr) : Prop := encode i &&& rowMask i = rowMatch i

theorem mask_class : (0xF000 : Word16) = formXYN 0xF 0 0 0 := by decide
theorem mask_xy : (0xF00F : Word16) = formXYN 0xF 0 0 0xF := by decide
theorem mask_xf : (0xF0FF : Word16) = formXYN 0xF 0 0xF 0xF := by decide

theorem and_ones (a : Nib) : a &&& 0xF = a := BitVec.and_allOnes
theorem and_zeros (a : Nib) : a &&& 0 = 0 := BitVec.and_zero

/-- Masking with the class mask keeps the first nibble (formats `A`, `XI`, `XYN`). -/
theorem and_class (a x y n : Nib) : formXYN a x y n &&& 0xF000 = formXYN a 0 0 0 := by
  rw [mask_class, formXYN_and, and_ones, and_zeros, and_zeros, and_zeros]

/-- Masking with the format `XY` mask keeps the first and the last nibble. -/
theorem and_xy (a x y n : Nib) : formXYN a x y n &&& 0xF00F = formXYN a 0 0 n := by
  rw [mask_xy, formXYN_and, and_ones, and_zeros, and_zeros, and_ones]

/-- Masking with the format `XF` mask clears the second nibble only. -/
theorem and_xf (a x y n : Nib) : formXYN a x y n &&& 0xF0FF = formXYN a 0 y n := by
  rw [mask_xf, formXYN_and, and_ones, and_zeros, and_ones, and_ones]

theorem formA_match (c : Nib) (nnn : Addr12) : formA c nnn &&& 0xF000 = formXYN c 0 0 0 := by
  rw [formA_eq, and_class]

theorem formXI_match (c x : Nib) (nn : Byte) : formXI c x nn &&& 0xF000 = formXYN c 0 0 0 := by
  rw [formXI_eq, and_class]

theorem formXF_match (c x : Nib) (nn : Byte) :
    formXI c x nn &&& 0xF0FF = formXYN c 0 (hiNib nn) (loNib nn) := by
  rw [formXI_eq, and_xf]

theorem cls : Statement .cls := rfl
theorem ret : Statement .ret := rfl
theorem call (nnn : Addr12) : Statement (.call nnn) := (formA_match _ _).trans rfl
theorem jp (nnn : Addr12) : Statement (.jp nnn) := (formA_match _ _).trans rfl
theorem ldi (x : RegIx) (nn : Byte) : Statement (.ldi x nn) :=
  (formXI_match _ _ _).trans rfl
theorem addi (x : RegIx) (nn : Byte) : Statement (.addi x nn) :=
  (formXI_match _ _ _).trans rfl
theorem seqi (x : RegIx) (nn : Byte) : Statement (.seqi x nn) :=
  (formXI_match _ _ _).trans rfl
theorem snei (x : RegIx) (nn : Byte) : Statement (.snei x nn) :=
  (formXI_match _ _ _).trans rfl
theorem seq (x y : RegIx) : Statement (.seq x y) := (and_xy _ _ _ _).trans rfl
theorem sne (x y : RegIx) : Statement (.sne x y) := (and_xy _ _ _ _).trans rfl
theorem mov (x y : RegIx) : Statement (.mov x y) := (and_xy _ _ _ _).trans rfl
theorem or (x y : RegIx) : Statement (.or x y) := (and_xy _ _ _ _).trans rfl
theorem and (x y : RegIx) : Statement (.and x y) := (and_xy _ _ _ _).trans rfl
theorem xor (x y : RegIx) : Statement (.xor x y) := (and_xy _ _ _ _).trans rfl
theorem add (x y : RegIx) : Statement (.add x y) := (and_xy _ _ _ _).trans rfl
theorem sub (x y : RegIx) : Statement (.sub x y) := (and_xy _ _ _ _).trans rfl
theorem subr (x y : RegIx) : Statement (.subr x y) := (and_xy _ _ _ _).trans rfl
theorem shr (x y : RegIx) : Statement (.shr x y) := (and_xy _ _ _ _).trans rfl
theorem shl (x y : RegIx) : Statement (.shl x y) := (and_xy _ _ _ _).trans rfl
theorem seti (nnn : Addr12) : Statement (.seti nnn) := (formA_match _ _).trans rfl
theorem jprel (nnn : Addr12) : Statement (.jprel nnn) := (formA_match _ _).trans rfl
theorem rnd (x : RegIx) (nn : Byte) : Statement (.rnd x nn) :=
  (formXI_match _ _ _).trans rfl
theorem drw (x y : RegIx) (n : Nib) : Statement (.drw x y n) :=
  (and_class _ _ _ _).trans rfl
theorem skp (x : RegIx) : Statement (.skp x) := (formXF_match _ _ _).trans rfl
theorem sknp (x : RegIx) : Statement (.sknp x) := (formXF_match _ _ _).trans rfl
theorem gdt (x : RegIx) : Statement (.gdt x) := (formXF_match _ _ _).trans rfl
theorem sdt (x : RegIx) : Statement (.sdt x) := (formXF_match _ _ _).trans rfl
theorem sst (x : RegIx) : Statement (.sst x) := (formXF_match _ _ _).trans rfl
theorem iadd (x : RegIx) : Statement (.iadd x) := (formXF_match _ _ _).trans rfl
theorem wkey (x : RegIx) : Statement (.wkey x) := (formXF_match _ _ _).trans rfl
theorem font (x : RegIx) : Statement (.font x) := (formXF_match _ _ _).trans rfl
theorem bcd (x : RegIx) : Statement (.bcd x) := (formXF_match _ _ _).trans rfl
theorem stm (x : RegIx) : Statement (.stm x) := (formXF_match _ _ _).trans rfl
theorem ldm (x : RegIx) : Statement (.ldm x) := (formXF_match _ _ _).trans rfl
theorem unrecognised (first x y n : Nib) : Statement (.unrecognised first x y n) :=
  BitVec.and_zero

end Sys2Proof.Laws.MatchesRow
end

