-- ==== Sys2Proof/Laws/Step.lean ====
section
/-! SUPPORT. What one instruction and one step can do, said once: every instruction completes or
raises one of the listed faults, and a step is a fetch fault or an instruction and then the end of
the step. -/

namespace Sys2Proof.Machine

theorem raise_eq_faultedWith (s : State) (c : Cause) (info : Nat) :
    s.raise c info = s.faultedWith c info := rfl

@[simp] theorem endStep_of_running {t : State} (h : t.status = .running) : t.endStep = t.pump := by
  simp [State.endStep, h]

@[simp] theorem endStep_of_faulted {t : State} {c : Cause} (h : t.status = .faulted c) :
    t.endStep = t := by
  simp [State.endStep, h]

/-- A running machine whose fetch succeeds executes what it fetched (R100). -/
theorem step_inRange {s : State} (hr : s.status = .running) (hp : s.pc.toNat ≤ 4094) :
    step s = stepFetched s (s.readByte s.pc.toNat) (s.readByte (s.pc.toNat + 1)) := by
  simp [step, hr, fetch_inRange hp]

/-- A running machine whose fetch is out of range faults (R101). -/
theorem step_outOfRange {s : State} (hr : s.status = .running) (hp : 4094 < s.pc.toNat) :
    step s = .next (s.raise .addressOutOfRange (max s.pc.toNat 4096)) := by
  simp [step, hr, fetch_outOfRange hp]; rfl

theorem stepFetched_of_next {s t : State} {b0 b1 : Byte}
    (h : exec (decodeBytes b0 b1) s = .next t) : stepFetched s b0 b1 = .next t.endStep := by
  simp [stepFetched, h]

/-- Every step that answers a next state: the machine was running, and either its fetch was out of
range, or it executed the instruction of the two bytes at `pc` and ended the step (R100). -/
theorem step_cases {s s' : State} (h : step s = .next s') :
    s.status = .running ∧
    ((4094 < s.pc.toNat ∧ s' = s.raise .addressOutOfRange (max s.pc.toNat 4096)) ∨
     (s.pc.toNat ≤ 4094 ∧ ∃ t,
        exec (decodeBytes (s.readByte s.pc.toNat) (s.readByte (s.pc.toNat + 1))) s = .next t ∧
        s' = t.endStep)) := by
  cases hr : s.status with
  | stopped => simp [step, hr] at h
  | faulted c => simp [step, hr] at h
  | running =>
    refine ⟨rfl, ?_⟩
    by_cases hp : s.pc.toNat ≤ 4094
    · rw [step_inRange hr hp, stepFetched] at h
      split at h
      · next t ht => exact .inr ⟨hp, t, ht, by simpa using h.symm⟩
      · cases h
      · cases h
    · rw [step_outOfRange hr (by omega)] at h
      exact .inl ⟨by omega, by simpa using h.symm⟩

end Sys2Proof.Machine
end

