-- ==== Sys2Proof/Tests/Slice0.lean ====
section
/-! SUPPORT. The model's own tests. Expected results are hand calculations from the spec: S<k> and
T<k> name the vectors of spec/95_test_vectors.md. Each `test_witness_…` meets the hypotheses of the
obligation it is named after, clause by clause and at the edges of their ranges. -/

namespace Sys2Proof.Tests

open Sys2Proof Sys2Proof.Machine

/-! ## Helpers -/

/-- The outcome is a next state with the given property. -/
def nextIs (o : Out) (p : State → Bool) : Bool :=
  match o with
  | .next t => p t
  | .fault _ => false
  | .refused _ => false

/-- What `nextIs` says. -/
theorem nextIs_iff (o : Out) (p : State → Bool) :
    nextIs o p = true ↔ ∃ t, o = .next t ∧ p t = true := by
  cases o <;> simp [nextIs]

/-- The reset state with the host's answer "still open" queued for two steps. -/
def s0 : State := { State.reset with pumpQueue := [true, true] }

/-- One step that runs the word `w` at `pc`. -/
def stepOn (w : Nat) (s : State) : Out := step (s.withFetchWord 16 w)

/-- Two registers set. -/
def with2 (x : RegIx) (a : Byte) (y : RegIx) (b : Byte) : State := (s0.writeReg x a).writeReg y b

/-- Three registers set. -/
def with3 (x : RegIx) (a : Byte) (y : RegIx) (b : Byte) (z : RegIx) (c : Byte) : State :=
  (with2 x a y b).writeReg z c

/-- `pc` set. -/
def atPc (a : Addr) : State := { s0 with pc := a }

/-- `I` set. -/
def atI (a : Addr) : State := { s0 with I := a }

/-- A finite stack that is full (T14). -/
def fullStack : State :=
  { s0 with pc := 0x400, stack := [0x202, 0x302], stackDepth := some 2 }

/-- The state as a fault with this cause, `pc` and address left it. -/
def faultIs (t : State) (c : Cause) (pc : Addr) (a : Nat) : Bool :=
  t.status == .faulted c && t.faultRecord == some ⟨c, pc, a⟩ && t.pc == pc

/-! ## Well-formedness: the check refuses each ill-formed term -/

theorem test_wf_refuses_call_0E0 : (Instr.call 0x0E0).wf = false := by decide
theorem test_wf_refuses_call_0EE : (Instr.call 0x0EE).wf = false := by decide
theorem test_wf_accepts_call_0E1 : (Instr.call 0x0E1).wf = true := by decide
/-- Each of these words matches a row of the table, so it is not unrecognised (R89). -/
theorem test_wf_refuses_recognised_words :
    (Instr.unrecognised 0x0 0 0 0).wf = false ∧ (Instr.unrecognised 0x5 1 2 0).wf = false ∧
    (Instr.unrecognised 0x8 1 2 7).wf = false ∧ (Instr.unrecognised 0x9 1 2 0).wf = false ∧
    (Instr.unrecognised 0xE 1 9 0xE).wf = false ∧ (Instr.unrecognised 0xF 1 0 7).wf = false ∧
    (Instr.unrecognised 0xD 1 2 3).wf = false := by decide
/-- One unrecognised word of each class of R89 (T5). -/
theorem test_wf_accepts_unrecognised_words :
    (Instr.unrecognised 0x2 3 0 0).wf = true ∧ (Instr.unrecognised 0x5 1 2 1).wf = true ∧
    (Instr.unrecognised 0x8 1 2 8).wf = true ∧ (Instr.unrecognised 0x9 0 0 1).wf = true ∧
    (Instr.unrecognised 0xE 0 0 0).wf = true ∧ (Instr.unrecognised 0xF 0 0xF 0xF).wf = true := by
  decide

/-! ## Decoding: a word of every row, written out bit by bit from R84 and R86 -/

theorem test_decode_control :
    decodeWord 0b0000000011100000 = .cls ∧ decodeWord 0b0000000011101110 = .ret ∧
    decodeWord 0b0000001100000001 = .call 0x301 ∧ decodeWord 0b0001001000110100 = .jp 0x234 ∧
    decodeWord 0b1011010101100111 = .jprel 0x567 := by decide
theorem test_decode_skips :
    decodeWord 0b0011010000010010 = .seqi 4 0x12 ∧ decodeWord 0b0100001000000101 = .snei 2 5 ∧
    decodeWord 0b0101000100100000 = .seq 1 2 ∧ decodeWord 0b1001000100100000 = .sne 1 2 := by decide
theorem test_decode_immediates :
    decodeWord 0b0110001111111111 = .ldi 3 0xFF ∧ decodeWord 0b0111001100000010 = .addi 3 2 ∧
    decodeWord 0b1100000100001111 = .rnd 1 0x0F ∧ decodeWord 0b1010101111001101 = .seti 0xBCD := by
  decide
theorem test_decode_alu :
    decodeWord 0b1000000100100000 = .mov 1 2 ∧ decodeWord 0b1000000100100001 = .or 1 2 ∧
    decodeWord 0b1000000100100010 = .and 1 2 ∧ decodeWord 0b1000000100100011 = .xor 1 2 ∧
    decodeWord 0b1000000100100100 = .add 1 2 ∧ decodeWord 0b1000000100100101 = .sub 1 2 ∧
    decodeWord 0b1000000100100111 = .subr 1 2 ∧ decodeWord 0b1000000110100110 = .shr 1 0xA ∧
    decodeWord 0b1000000110101110 = .shl 1 0xA := by decide
theorem test_decode_draw_and_keys :
    decodeWord 0b1101000000010010 = .drw 0 1 2 ∧ decodeWord 0b1110111110011110 = .skp 0xF ∧
    decodeWord 0b1110001110100001 = .sknp 3 ∧ decodeWord 0b1111010100001010 = .wkey 5 := by decide
theorem test_decode_misc :
    decodeWord 0b1111001100000111 = .gdt 3 ∧ decodeWord 0b1111001100010101 = .sdt 3 ∧
    decodeWord 0b1111000000011000 = .sst 0 ∧ decodeWord 0b1111001000011110 = .iadd 2 ∧
    decodeWord 0b1111000000101001 = .font 0 ∧ decodeWord 0b1111000000110011 = .bcd 0 ∧
    decodeWord 0b1111000101010101 = .stm 1 ∧ decodeWord 0b1111001001100101 = .ldm 2 := by decide
/-- T5, S8: a word of each unrecognised class; and C1: the all-zero word is a call. -/
theorem test_decode_unrecognised :
    decodeWord 0x2300 = .unrecognised 2 3 0 0 ∧ decodeWord 0x5121 = .unrecognised 5 1 2 1 ∧
    decodeWord 0x8128 = .unrecognised 8 1 2 8 ∧ decodeWord 0x9001 = .unrecognised 9 0 0 1 ∧
    decodeWord 0xE000 = .unrecognised 0xE 0 0 0 ∧ decodeWord 0xF0FF = .unrecognised 0xF 0 0xF 0xF ∧
    decodeWord 0x0000 = .call 0 := by decide
/-- T1: rows 1 and 2 come before row 3. -/
theorem test_decode_priority :
    decodeWord 0x00E1 = .call 0x0E1 ∧ decodeWord 0x00FE = .call 0x0FE ∧
    decodeWord 0x0EE0 = .call 0xEE0 := by decide
/-- S1: the six fields of two byte pairs. -/
theorem test_decode_fields :
    decodeFields 0xD0 0x12 = ⟨0xD, 0, 1, 2, 0x12, 0x012⟩ ∧
    decodeFields 0xAB 0xCD = ⟨0xA, 0xB, 0xC, 0xD, 0xCD, 0xBCD⟩ := by decide
theorem test_decode_truncated :
    decode [0x12] = .error (.truncated 1) ∧ decode [] = .error (.truncated 0) := by decide
theorem test_decode_table_word : decodeTableWord 16 0xF265 = some (.ldm 2) := by decide
/-- The listings P1 and P3: assembly to words. -/
theorem test_encode_listing :
    encodeBytes (.ldi 0 0) = [0x60, 0x00] ∧ encodeBytes (.add 0 1) = [0x80, 0x14] ∧
    encodeBytes (.jp 0x204) = [0x12, 0x04] ∧ encodeBytes (.drw 0 1 2) = [0xD0, 0x12] ∧
    encodeBytes .cls = [0x00, 0xE0] ∧ encodeBytes (.ldm 2) = [0xF2, 0x65] := by decide

/-! ## Control flow -/

/-- The example of R120; T12 and P5. -/
theorem test_ret_pops :
    nextIs (stepOn 0x00EE { s0 with pc := 0x20C, stack := [0x206] })
      (fun t => t.pc == 0x206 && t.stack == []) := by decide
theorem test_ret_empty_faults :
    nextIs (stepOn 0x00EE s0)
      (fun t => faultIs t .emptyStackReturn 0x200 0 && t.shown == none) := by decide
/-- T13 (order of the stack) and T14 (the full stack). -/
theorem test_call_pushes :
    nextIs (stepOn 0x0400 { s0 with pc := 0x300, stack := [0x202] })
      (fun t => t.pc == 0x400 && t.stack == [0x202, 0x302]) := by decide
theorem test_call_full_faults :
    nextIs (stepOn 0x0500 fullStack)
      (fun t => faultIs t .stackOverflow 0x400 0 && t.stack == [0x202, 0x302]) := by decide
/-- T10. -/
theorem test_jp : nextIs (stepOn 0x1204 (atPc 0x20A)) (fun t => t.pc == 0x204) := by decide
/-- T15. -/
theorem test_jprel :
    nextIs (stepOn 0xB004 ((atPc 0x202).writeReg 0 2)) (fun t => t.pc == 0x208) := by decide
theorem test_jprel_beyond_memory :
    nextIs (stepOn 0xBFFF (s0.writeReg 0 0xFF)) (fun t => t.pc == 0x12FE) := by decide
/-- T16 to T19. -/
theorem test_seqi :
    nextIs (stepOn 0x3100 s0) (fun t => t.pc == 0x204) ∧
    nextIs (stepOn 0x3100 (s0.writeReg 1 1)) (fun t => t.pc == 0x202) := by decide
theorem test_snei :
    nextIs (stepOn 0x4205 (s0.writeReg 2 5)) (fun t => t.pc == 0x202) ∧
    nextIs (stepOn 0x4206 (s0.writeReg 2 5)) (fun t => t.pc == 0x204) := by decide
theorem test_seq :
    nextIs (stepOn 0x5120 (with2 1 7 2 7)) (fun t => t.pc == 0x204) ∧
    nextIs (stepOn 0x5120 (with2 1 7 2 8)) (fun t => t.pc == 0x202) := by decide
theorem test_sne :
    nextIs (stepOn 0x9120 (with2 1 7 2 8)) (fun t => t.pc == 0x204) ∧
    nextIs (stepOn 0x9110 (with2 1 7 2 7)) (fun t => t.pc == 0x202) := by decide
/-- S8: one log event and `pc` by 2; the stack stays empty. -/
theorem test_unrecognised :
    nextIs (stepOn 0x2300 s0)
      (fun t => t.pc == 0x202 && t.log == [⟨2, 3, 0, 0⟩] && t.stack == []) := by decide

/-! ## Arithmetic and logic -/

/-- T30. -/
theorem test_ldi : nextIs (stepOn 0x6F07 s0) (fun t => t.readReg 15 == 7) := by decide
/-- S2. -/
theorem test_addi_wraps :
    nextIs (stepOn 0x7302 (with2 3 0xFF 15 0x5A))
      (fun t => t.readReg 3 == 1 && t.readReg 15 == 0x5A) := by decide
/-- T32. -/
theorem test_mov :
    nextIs (stepOn 0x8010 (s0.writeReg 1 0x2A))
      (fun t => t.readReg 0 == 0x2A && t.readReg 1 == 0x2A) := by decide
/-- T33. -/
theorem test_or :
    nextIs (stepOn 0x8121 (with3 1 0xF0 2 0x3C 15 0x77))
      (fun t => t.readReg 1 == 0xFC && t.readReg 15 == 0x77) := by decide
theorem test_and :
    nextIs (stepOn 0x8122 (with3 1 0xF0 2 0x3C 15 0x77))
      (fun t => t.readReg 1 == 0x30 && t.readReg 15 == 0x77) := by decide
theorem test_xor :
    nextIs (stepOn 0x8123 (with3 1 0xF0 2 0x3C 15 0x77))
      (fun t => t.readReg 1 == 0xCC && t.readReg 15 == 0x77) := by decide
/-- S3; T35: the carry wins. -/
theorem test_add_carry :
    nextIs (stepOn 0x8124 (with2 1 0xFF 2 1))
      (fun t => t.readReg 1 == 0 && t.readReg 2 == 1 && t.readReg 15 == 1) := by decide
theorem test_add_to_flag :
    nextIs (stepOn 0x8F14 (with2 15 0x10 1 1)) (fun t => t.readReg 15 == 0) := by decide
/-- S4; T37: the difference wins, and an old flag value is the subtrahend. -/
theorem test_sub_borrow :
    nextIs (stepOn 0x8125 (with3 1 1 2 2 15 1))
      (fun t => t.readReg 1 == 0xFF && t.readReg 15 == 0) := by decide
theorem test_sub_with_flag :
    nextIs (stepOn 0x8F15 (with2 15 5 1 3)) (fun t => t.readReg 15 == 2) ∧
    nextIs (stepOn 0x80F5 (with2 0 5 15 7))
      (fun t => t.readReg 0 == 0xFE && t.readReg 15 == 0) := by decide
/-- T38. -/
theorem test_subr :
    nextIs (stepOn 0x8127 (with2 1 3 2 10))
      (fun t => t.readReg 2 == 7 && t.readReg 1 == 3 && t.readReg 15 == 1) := by decide
theorem test_subr_with_flag :
    nextIs (stepOn 0x81F7 (with2 1 3 15 10)) (fun t => t.readReg 15 == 7) ∧
    nextIs (stepOn 0x8F17 (with2 15 2 1 9))
      (fun t => t.readReg 15 == 1 && t.readReg 1 == 7) := by decide
/-- T39, T40. -/
theorem test_shr :
    nextIs (stepOn 0x81A6 (with3 1 0x81 10 0x55 15 0x33))
      (fun t => t.readReg 1 == 0x40 && t.readReg 10 == 0x55 && t.readReg 15 == 0x33) := by decide
theorem test_shl :
    nextIs (stepOn 0x810E (with2 1 0x81 15 0x33))
      (fun t => t.readReg 1 == 2 && t.readReg 15 == 0x33) := by decide
/-- T41. -/
theorem test_rnd :
    nextIs (stepOn 0xC10F { s0 with randomQueue := [0xA7, 0xFF] })
      (fun t => t.readReg 1 == 7 && t.randomQueue == [0xFF]) := by decide

/-- R7: a machine constructed with `FLAG` = 14 writes the carry into `V[14]` (the repository's slot). -/
theorem test_add_flag_14 :
    nextIs (stepOn 0x8124 { with2 1 0xFF 2 1 with flag := 14 })
      (fun t => t.readReg 14 == 1 && t.readReg 15 == 0) := by decide

/-! ## Index register and memory -/

/-- T50 to T52. -/
theorem test_seti : nextIs (stepOn 0xAFFF s0) (fun t => t.I == 0x0FFF) := by decide
theorem test_iadd :
    nextIs (stepOn 0xF21E ((atI 0xFF80).writeReg 2 0xFF)) (fun t => t.I == 0x007F) ∧
    nextIs (stepOn 0xF21E ((atI 0x0FFF).writeReg 2 1)) (fun t => t.I == 0x1000) := by decide
theorem test_font : nextIs (stepOn 0xF029 (s0.writeReg 0 0xFF)) (fun t => t.I == 0x00FF) := by decide
/-- T53. -/
theorem test_bcd :
    nextIs (stepOn 0xF033 ((atI 0x300).writeReg 0 234))
      (fun t => t.loadBytes 0x2FF 5 == [0, 2, 3, 4, 0] && t.I == 0x300) := by decide
theorem test_bcd_faults :
    nextIs (stepOn 0xF033 ((atI 0xFFE).writeReg 0 234))
      (fun t => faultIs t .addressOutOfRange 0x200 0x1000 && t.readByte 0xFFE == 0) ∧
    nextIs (stepOn 0xF033 (atI 0x2345)) (fun t => faultIs t .addressOutOfRange 0x200 0x2345) := by
  decide
/-- T54. -/
theorem test_stm :
    nextIs (stepOn 0xF155 { with3 0 0xAA 1 0xBB 2 0xCC with I := 0x400 })
      (fun t => t.loadBytes 0x400 3 == [0xAA, 0xBB, 0] && t.I == 0x400) := by decide
theorem test_stm_at_the_top :
    nextIs (stepOn 0xF155 (atI 0xFFE)) (fun t => t.status == .running) ∧
    nextIs (stepOn 0xF255 (atI 0xFFE)) (fun t => faultIs t .addressOutOfRange 0x200 0x1000) := by
  decide
/-- T55. -/
theorem test_ldm_loads_all :
    nextIs (stepOn 0xF065 { s0.storeBytes 0x300 [2, 3, 4] with
        V := Vector.replicate 16 0x11, I := 0x300 })
      (fun t => t.V.toList == [2, 3, 4] ++ List.replicate 13 0 && t.I == 0x300) := by decide
theorem test_ldm_at_the_top :
    nextIs (stepOn 0xF065 (atI 0xFF0)) (fun t => t.status == .running) ∧
    nextIs (stepOn 0xF065 (atI 0xFF1)) (fun t => faultIs t .addressOutOfRange 0x200 0x1000) := by
  decide

/-! ## Draw -/

/-- S7. -/
theorem test_cls :
    nextIs (stepOn 0x00E0 ((s0.setPixel 5 0 true).setPixel 62 31 true))
      (fun t => t.getPixel 5 0 == false && t.getPixel 62 31 == false && t.pc == 0x202) := by decide
/-- T61, the example of R172: wrap on both axes. -/
def sprite : State := { (with2 0 62 1 31).storeBytes 0x20E [0xC0, 0x81] with I := 0x20E }
theorem test_drw_wraps :
    nextIs (stepOn 0xD012 sprite) (fun t =>
      t.getPixel 63 31 && t.getPixel 5 0 && t.getPixel 0 31 == false && t.readReg 15 == 0) := by
  decide +kernel
/-- The second draw of T61, two of its pixels: they go, and the flag is the last pixel's collision. -/
theorem test_drw_again :
    nextIs (stepOn 0xD012 ((sprite.setPixel 62 31 true).setPixel 5 0 true))
      (fun t => t.getPixel 62 31 == false && t.getPixel 5 0 == false && t.readReg 15 == 1) := by
  decide +kernel

/-! ## Timers and stubs -/

/-- T70, T72. -/
theorem test_gdt :
    nextIs (stepOn 0xF407 { s0 with DT := 0x3C }) (fun t => t.readReg 4 == 0x3C && t.DT == 0x3C) := by
  decide
theorem test_sdt :
    nextIs (stepOn 0xF315 (s0.writeReg 3 0x3C)) (fun t => t.DT == 0x3C && t.ST == 0) := by decide
theorem test_sst :
    nextIs (stepOn 0xF018 (s0.writeReg 0 5)) (fun t => t.ST == 5 && t.DT == 0) := by decide
/-- T73, T74. -/
theorem test_skp : nextIs (stepOn 0xE09E s0) (fun t => t.pc == 0x202) := by decide
theorem test_sknp : nextIs (stepOn 0xE3A1 s0) (fun t => t.pc == 0x202) := by decide
theorem test_wkey :
    nextIs (stepOn 0xF50A (s0.writeReg 5 0x77)) (fun t => t.pc == 0x202 && t.readReg 5 == 0x77) := by
  decide

/-! ## The step cycle, faults and reset -/

/-- R201: the codes of the causes. -/
theorem test_cause_codes :
    Cause.emptyStackReturn.code = 1 ∧ Cause.addressOutOfRange.code = 2 ∧
    Cause.stackOverflow.code = 3 := by decide
/-- T2: the byte at the lower address is the high one. T3: an odd `pc` fetches like any other. -/
theorem test_fetch_is_big_endian :
    nextIs (step (s0.storeBytes 0x200 [0x12, 0x34])) (fun t => t.pc == 0x234) := by decide
theorem test_fetch_at_odd_pc :
    nextIs (step ((atPc 0x203).storeBytes 0x203 [0x65, 0x07]))
      (fun t => t.readReg 5 == 7 && t.pc == 0x205) := by decide
/-- T4: the fetch at the top of memory. -/
theorem test_fetch_at_the_top :
    nextIs (step ((atPc 0xFFE).storeBytes 0xFFE [0x60, 0x01]))
      (fun t => t.readReg 0 == 1 && t.pc == 0x1000) ∧
    nextIs (step (atPc 0x1000)) (fun t => faultIs t .addressOutOfRange 0x1000 0x1000) ∧
    nextIs (step (atPc 0xFFF)) (fun t => faultIs t .addressOutOfRange 0xFFF 0x1000) := by decide
/-- T83: the host's answer decides the status; the frame it saw is the one the handler left. -/
theorem test_pump_stops :
    nextIs (stepOn 0x00E0 { s0.setPixel 5 0 true with pumpQueue := [false] })
      (fun t => t.status == .stopped && t.shown.any (fun f => f[0][5] == false) && t.pumpCount == 1) := by
  decide
/-- T82: after reset with nothing loaded the word at 0x200 is a call of address 0. -/
theorem test_reset_runs_call_0 :
    nextIs (step State.reset) (fun t => t.pc == 0 && t.stack == [0x202]) := by decide
/-- `State.reset` is construction with the default parameters and an empty ROM. -/
theorem test_reset_is_construction :
    construct ⟨Config.font.toArray, rfl⟩ [] 15 none = .next State.reset := by rfl
/-- T80. -/
theorem test_construct_rom :
    nextIs (construct ⟨Config.font.toArray, rfl⟩ [0x12, 0x34, 0x56] 15 none)
      (fun t => t.readByte 0x201 == 0x34 && t.readByte 0x4F == 0x80 && t.pc == 0x200) := by
  decide +kernel

/-! ## Witnesses -/

theorem test_witness_DecodeOfEncode :
    (Instr.call 0xFFF).wf = true ∧ (Instr.unrecognised 0xF 0xF 0xF 0xF).wf = true := by decide
theorem test_witness_OnlyClsAndRetOverlapCall :
    (opcodeRows[0]?.any fun r => r.pat.accepts (decodeFields 0x00 0xE0)) = true ∧
    (opcodeRows[1]?.any fun r => r.pat.accepts (decodeFields 0x00 0xEE)) = true ∧
    (opcodeRows[2]?.any fun r => r.pat.accepts (decodeFields 0x00 0xE0)) = true ∧
    (opcodeRows[2]?.any fun r => r.pat.accepts (decodeFields 0x00 0xEE)) = true := by decide
theorem test_witness_UnrecognisedWordsAreTheListed :
    unrecognisedNibs (hiNib 0x51) (hiNib 0x21) (loNib 0x21) = true ∧
    unrecognisedNibs (hiNib 0x51) (hiNib 0x20) (loNib 0x20) = false := by decide

/-- A running state whose fetch is the last that succeeds (T4). -/
def lastFetch : State := (atPc 0xFFE).storeBytes 0xFFE [0x60, 0x01]
/-- The same with the word `00EE` there, and the stack empty. -/
def lastRet : State := (atPc 0xFFE).storeBytes 0xFFE [0x00, 0xEE]
theorem test_witness_StepExecutesDecodedInstruction :
    lastFetch.status = .running ∧ lastFetch.pc.toNat + 1 ≤ 4095 ∧
    decode [lastFetch.readByte lastFetch.pc.toNat, lastFetch.readByte (lastFetch.pc.toNat + 1)] =
      .ok (.ldi 0 1, []) := by
  refine ⟨by decide, by decide, ?_⟩
  rfl
/-- The clauses of the cycle: a fetch fault at the first `pc` that has one, a completed handler, a
handler that faulted, and the two ends of a run. -/
theorem test_witness_StepCycle :
    (atPc 0xFFF).status = .running ∧ (atPc 0xFFF).pc.toNat + 1 > 4095 ∧
    nextIs (exec (decodeBytes (lastFetch.readByte 0xFFE) (lastFetch.readByte 0xFFF)) lastFetch)
      (fun t => t.status == .running) ∧
    lastRet.status = .running ∧ lastRet.pc.toNat + 1 ≤ 4095 ∧
    nextIs (exec (decodeBytes (lastRet.readByte 0xFFE) (lastRet.readByte 0xFFF)) lastRet)
      (fun t => t.status == .faulted .emptyStackReturn) ∧
    step { s0 with status := .stopped } = .fault .machineStopped ∧
    step { s0 with status := .faulted .stackOverflow } = .fault (.machineFaulted .stackOverflow) :=
  ⟨by decide, by decide, by decide, by decide, by decide, by decide, rfl, rfl⟩
/-- Both clauses of the pump: an answer is queued, and none is. -/
theorem test_witness_PumpEndsEveryCompletedStep :
    lastFetch.status = .running ∧ lastFetch.pc.toNat + 1 ≤ 4095 ∧
    nextIs (exec (decodeBytes 0x60 0x01) lastFetch)
      (fun t => t.status == .running && t.pumpQueue == [true, true]) ∧
    nextIs (exec (decodeBytes 0x60 0x01) { lastFetch with pumpQueue := [] })
      (fun t => t.status == .running && t.pumpQueue == []) := by decide
theorem test_witness_RunningMachineAlwaysSteps :
    s0.status = .running ∧ ({ s0 with status := .stopped } : State).status ≠ .running := by decide
/-- A handler that completes, and one for each listed fault, at the edge of its range. -/
theorem test_witness_FaultsAreTheListed :
    nextIs (exec (.bcd 0) (atI 0xFFD)) (fun t => t.status == .running) ∧
    nextIs (exec .ret s0) (fun t => t.status == .faulted .emptyStackReturn) ∧
    nextIs (exec (.call 0) fullStack) (fun t => t.status == .faulted .stackOverflow) ∧
    nextIs (exec (.drw 0 1 3) (atI 0xFFE)) (fun t => t.status == .faulted .addressOutOfRange) ∧
    nextIs (exec (.bcd 0) (atI 0xFFE)) (fun t => t.status == .faulted .addressOutOfRange) ∧
    nextIs (exec (.stm 15) (atI 0xFF1)) (fun t => t.status == .faulted .addressOutOfRange) ∧
    nextIs (exec (.ldm 0) (atI 0xFF1)) (fun t => t.status == .faulted .addressOutOfRange) := by decide
theorem test_witness_FaultEntryIsPrecise :
    nextIs (step (atPc 0xFFF)) (fun t => t.status == .faulted .addressOutOfRange) := by decide

/-- A state with the invariant in which every part of it says something. -/
def invState : State :=
  { s0.storeBytes 0x200 [0x00, 0xEE] with stack := [0x1000], stackDepth := some 1 }
theorem test_witness_StepKeepsInvariant_inv : invState.Inv where
  memory_wf := by decide
  record := by
    have h : invState.status = .running := rfl
    rw [State.RecordAgrees, h]; rfl
  depth d h := by cases h; exact Nat.le_refl 1
  entries a h := by
    have hm : a ∈ [(0x1000 : Addr)] := h
    rw [List.mem_singleton.1 hm]; simp
  pc_bound := Nat.le_of_ble_eq_true rfl
theorem test_witness_StepKeepsInvariant_step :
    nextIs (step invState) (fun t => t.pc == 0x1000 && t.stack == []) := by decide
theorem test_witness_ConstructedMachineHasInvariant :
    nextIs (construct (Vector.replicate 80 0) [0x12, 0x00] 14 (some 2))
      (fun t => t.stackDepth == some 2 && t.flag == 14 && t.readByte 0 == 0) := by decide
theorem test_witness_PcAfterEveryInstruction :
    s0.status = .running ∧
    nextIs (exec (.jprel 0xFFF) ((atPc 0xFFE).writeReg 0 0xFF))
      (fun t => t.status == .running && t.pc == 8444) ∧
    nextIs (exec .ret s0) (fun t => t.status != .running && t.pc == 0x200) := by decide
theorem test_witness_RegistersWrittenAreTheListed :
    (nextIs (exec (.drw 0 1 0) s0) (fun _ => true) = true ∧ ¬ mayWriteReg (.drw 0 1 0) s0 s0.flagIx) ∧
    (nextIs (exec (.add 1 2) s0) (fun _ => true) = true ∧ ¬ mayWriteReg (.add 1 2) s0 3) := by
  refine ⟨⟨by decide, by simp [mayWriteReg]⟩, by decide, ?_⟩
  have h : s0.flagIx = 15 := rfl
  simp [mayWriteReg, h]
/-- Each clause: a step that does change the piece of state. -/
theorem test_witness_StateChangesOnlyByItsInstructions :
    nextIs (stepOn 0xA300 s0) (fun t => t.I != s0.I) ∧
    nextIs (stepOn 0xF015 (s0.writeReg 0 1)) (fun t => t.DT != s0.DT) ∧
    nextIs (stepOn 0xF018 (s0.writeReg 0 1)) (fun t => t.ST != s0.ST) ∧
    nextIs (stepOn 0xF055 ((atI 0x300).writeReg 0 1)) (fun t => t.readByte 0x300 != 0) ∧
    nextIs (stepOn 0x0300 s0) (fun t => t.stack != s0.stack) ∧
    nextIs (stepOn 0xD011 s0) (fun t => t.getPixel 0 0) ∧
    nextIs (stepOn 0xC000 s0) (fun t => t.randomCount != s0.randomCount) ∧
    nextIs (stepOn 0xC000 { s0 with randomQueue := [1] }) (fun t => t.randomQueue == []) ∧
    nextIs (stepOn 0x2000 s0) (fun t => t.log != s0.log) := by decide
theorem test_witness_SoundTimerAndLogAreNeverRead :
    AgreeButUnread s0 { s0 with ST := 1, log := [⟨2, 0, 0, 0⟩], shown := some Framebuffer.clear } ∧
    s0.ST ≠ 1 := ⟨rfl, by decide⟩

theorem test_witness_RetPopsOrFaults :
    fullStack.stack = [0x202] ++ [0x302] ∧ s0.stack = [] := by decide
theorem test_witness_CallPushesOrFaults :
    s0.stackDepth ≠ some s0.stack.length ∧
    ({ fullStack with stackDepth := some 3 } : State).stackDepth ≠ some fullStack.stack.length ∧
    fullStack.stackDepth = some fullStack.stack.length := by decide
theorem test_witness_CallThenRetRestores :
    ({ fullStack with stackDepth := some 3 } : State).stackDepth ≠ some fullStack.stack.length := by
  decide
/-- The largest `pc` that can be fetched from, and one above it. -/
theorem test_witness_JprelAddsToItsOwnAddress :
    (atPc 4094).pc.toNat ≤ 4094 ∧ ¬ (atPc 4095).pc.toNat ≤ 4094 ∧
    nextIs (exec (.jprel 0xFFF) ((atPc 0xFFFF).writeReg 0 1)) (fun t => t.pc == 0xFFF) := by decide
theorem test_witness_flag_clauses : (1 : RegIx) ≠ s0.flagIx ∧ s0.flagIx = 15 := by decide
/-- A queued byte, no queued byte, and a byte that the mask allows. -/
theorem test_witness_RndIsAnyMaskedByte :
    ({ s0 with randomQueue := [0xA7] } : State).randomQueue = 0xA7 :: [] ∧ s0.randomQueue = [] ∧
    (0xF0 : Byte) &&& ~~~(0xF0 : Byte) = 0 := by decide

theorem test_witness_BcdStoresDigitsOrFaults :
    (atI 0xFFD).I.toNat + 2 ≤ 4095 ∧ (atI 0xFFE).I.toNat + 2 > 4095 := by decide
theorem test_witness_StmStoresRegistersOrFaults :
    (atI 0xFF0).I.toNat + (15 : RegIx).toNat ≤ 4095 ∧ (15 : RegIx).toNat ≤ (15 : RegIx).toNat ∧
    (atI 0xFF1).I.toNat + (15 : RegIx).toNat > 4095 := by decide
theorem test_witness_LdmLoadsAllRegistersOrFaults :
    (atI 0xFF0).I.toNat + 15 ≤ 4095 ∧ (atI 0xFF1).I.toNat + 15 > 4095 := by decide
/-- The second state may be the first one's successor itself. -/
theorem test_witness_LdmAfterStmRestoresRegisters :
    (atI 0xFF0).I.toNat + 15 ≤ 4095 ∧
    nextIs (exec (.stm 15) (atI 0xFF0)) (fun t => t.I == (atI 0xFF0).I) := by decide
/-- P6: the store is over the two bytes after the storing instruction, or over one of them. -/
theorem test_witness_StoreIsSeenByNextFetch :
    (atI 0x202).I.toNat + (1 : RegIx).toNat ≤ 4095 ∧ (atI 0x201).I.toNat + 2 ≤ 4095 ∧
    nextIs (exec (.stm 1) (atI 0x202)) (fun t => t.pc.toNat + 1 ≤ 4095 &&
      t.pc.toNat == (atI 0x202).I.toNat + (0 : RegIx).toNat &&
      t.pc.toNat + 1 == (atI 0x202).I.toNat + (1 : RegIx).toNat) ∧
    nextIs (exec (.bcd 0) (atI 0x201)) (fun t =>
      t.pc.toNat == (atI 0x201).I.toNat + 1 && t.pc.toNat + 1 == (atI 0x201).I.toNat + 2) := by decide
/-- Writing back what an unlisted address reads as gives the empty list again. -/
theorem test_witness_CanonicalMemoryIsUnique :
    (Memory.store [] 4094 [1, 2]).wf = true ∧ Memory.wf [] = true ∧
    (Memory.store [] 0x300 [7]).store 0x300 [0] = [] := by decide

/-- T66: the last index that does not fault and the first that does. -/
theorem test_witness_DrwXorsSpriteOrFaults :
    (3 : Nib) ≠ 0 ∧ (atI 0xFFD).I.toNat + (3 : Nib).toNat - 1 ≤ 4095 ∧
    (atI 0xFFE).I.toNat + (3 : Nib).toNat - 1 > 4095 ∧
    (wrapCol 62 7).val = ((62 : Byte).toNat + 7) % 64 ∧
    (wrapRow 31 2).val = ((31 : Byte).toNat + (3 : Nib).toNat - 1) % 32 := by decide
/-- T65: with no row the instruction only advances, though `I` addresses nothing. -/
theorem test_drw_no_rows :
    nextIs (stepOn 0xD010 ((atI 0xFFFF).writeReg 15 0x5A))
      (fun t => t.status == .running && t.pc == 0x202 && t.readReg 15 == 0x5A) := by decide
/-- The second draw starts from the first one's successor with the registers it had. -/
theorem test_witness_DrawingTwiceRestoresPixels :
    nextIs (exec (.drw 0 1 2) sprite) (fun t =>
      t.readReg 0 == sprite.readReg 0 && t.readReg 1 == sprite.readReg 1 && t.I == sprite.I &&
        t.memory == sprite.memory && nextIs (exec (.drw 0 1 2) t) (fun _ => true)) := by decide
theorem test_witness_ResetState :
    State.reset.readByte 79 = 0x80 ∧ State.reset.readByte 80 = 0 := by decide
/-- T81: the longest ROM that fits, and one byte more. -/
theorem test_witness_ConstructedMemory :
    (List.replicate 3584 (0x60 : Byte)).length ≤ 3584 ∧
    3584 < (List.replicate 3585 (0x60 : Byte)).length :=
  ⟨List.length_replicate.le, List.length_replicate.symm ▸ Nat.lt_succ_self 3584⟩

end Sys2Proof.Tests
end

/-! ## What an instruction and the end of a step can do, said once

`exec_effect` is the inversion lemma of `exec`: an instruction raises a fault, or it makes one of
the updates of `Update` and sets `pc` to `pcAfter`. The statements on the state follow from it. -/

namespace Sys2Proof.Machine

/-- The address a fault records: one that does not exist for `AddressOutOfRange`, else 0 (R201). -/
def FaultInfoAgrees (c : Cause) (info : Nat) : Prop :=
  (c = .addressOutOfRange → Config.memSize ≤ info) ∧ (c ≠ .addressOutOfRange → info = 0)

theorem faultInfoAgrees_addressOutOfRange (a : Nat) :
    FaultInfoAgrees .addressOutOfRange (max a Config.memSize) :=
  ⟨fun _ => le_max_right _ _, fun h => absurd rfl h⟩

theorem faultInfoAgrees_zero {c : Cause} (h : c ≠ .addressOutOfRange) : FaultInfoAgrees c 0 :=
  ⟨fun e => absurd e h, fun _ => rfl⟩

/-- `V` holds what the registers of `s` hold, outside the list of R22 for `i`. -/
def WritesOnlyTheListed (i : Instr) (s : State) (V : Vector Byte 16) : Prop :=
  ∀ r, ¬ mayWriteReg i s r → ({ s with V := V } : State).readReg r = s.readReg r

/-- What a completing instruction does to the state beside setting `pc`, with the instructions that
do it (R22, R27 to R34, R42, R44). -/
inductive Update (i : Instr) (s : State) : State → Prop
  | nothing : Update i s s
  | registers (V : Vector Byte 16) (hV : WritesOnlyTheListed i s V) : Update i s { s with V := V }
  | index (a : Addr)
      (hi : (∃ a, i = .seti a) ∨ (∃ x, i = .iadd x) ∨ (∃ x, i = .font x)) : Update i s (s.setI a)
  | delayTimer (v : Byte) (hi : ∃ x, i = .sdt x) : Update i s (s.setDT v)
  | soundTimer (v : Byte) (hi : ∃ x, i = .sst x) : Update i s (s.setST v)
  | bytes (base : Nat) (vs : List Byte) (hi : (∃ x, i = .bcd x) ∨ (∃ x, i = .stm x))
      (hin : blockInRange base vs.length = true) : Update i s (s.storeBytes base vs)
  | pushed (hi : ∃ a, i = .call a) (hfull : s.stackDepth ≠ some s.stack.length) :
      Update i s (s.push (s.pc + 2))
  | popped (hi : i = .ret) : Update i s { s with stack := s.stack.dropLast }
  | pixels (V : Vector Byte 16) (fb : Framebuffer) (hi : i = .cls ∨ ∃ x y n, i = .drw x y n)
      (hV : WritesOnlyTheListed i s V) : Update i s { s with V := V, fb := fb }
  | random (x : RegIx) (nn v : Byte) (hi : i = .rnd x nn) : Update i s (s.afterDraw.writeReg x v)
  | logged (e : LogEvent) (hi : ∃ f x y n, i = .unrecognised f x y n) : Update i s (s.logEvent e)

/-- What an instruction answers: a fault, or an update with `pc` set (R24, R204). -/
inductive Effect (i : Instr) (s : State) : State → Prop
  | faults (c : Cause) (info : Nat) (h : FaultInfoAgrees c info) : Effect i s (s.raise c info)
  | completes {u : State} (h : Update i s u) : Effect i s (u.setPc (pcAfter i s))

theorem Update.writeReg {i : Instr} {s : State} {x : RegIx} (v : Byte) (hx : mayWriteReg i s x) :
    Update i s (s.writeReg x v) := by
  refine .registers (s.writeReg x v).V fun r hr => ?_
  have hne : r ≠ x := fun e => hr (e ▸ hx)
  exact (readReg_writeReg s x r v).trans (if_neg hne)

theorem Update.writeReg_writeReg {i : Instr} {s : State} {x y : RegIx} (v w : Byte)
    (hx : mayWriteReg i s x) (hy : mayWriteReg i s y) :
    Update i s ((s.writeReg x v).writeReg y w) := by
  refine .registers ((s.writeReg x v).writeReg y w).V fun r hr => ?_
  have hnx : r ≠ x := fun e => hr (e ▸ hx)
  have hny : r ≠ y := fun e => hr (e ▸ hy)
  change ((s.writeReg x v).writeReg y w).readReg r = s.readReg r
  simp [hnx, hny]

/-- A sprite writes the flag register alone, and with no row none (R22, R178). -/
theorem Update.drawRows (s : State) (x y : RegIx) (n : Nib) (cx cy : Byte) (base : Nat) :
    Update (.drw x y n) s (s.drawRows cx cy 0 (s.loadBytes base n.toNat)) := by
  rw [drawRows_eq]
  refine .pixels _ _ (.inr ⟨x, y, n, rfl⟩) fun r hr => ?_
  change (s.drawRows cx cy 0 (s.loadBytes base n.toNat)).readReg r = s.readReg r
  by_cases hn : n = 0
  · subst hn; rfl
  · exact readReg_drawRows_of_ne _ _ _ _ _ fun e => hr ⟨e, hn⟩

theorem Update.writeRegs (s : State) (x : RegIx) (vs : List Byte) :
    Update (.ldm x) s (s.writeRegs 0 vs) := by
  rw [writeRegs_eq]
  exact .registers _ fun r hr => absurd trivial hr

theorem zextAddr_eq_ofNat (nnn : Addr12) : zextAddr nnn = BitVec.ofNat 16 nnn.toNat :=
  (BitVec.ofNat_toNat 16 nnn).symm

/-- The base of `JPREL` and its two addends, added as numbers and cut to 16 bits (R123). -/
theorem add_zext_eq_ofNat (pc : Addr) (nnn : Addr12) (v : Byte) :
    pc + zextAddr nnn + zextByte v = BitVec.ofNat 16 (pc.toNat + nnn.toNat + v.toNat) :=
  BitVec.eq_of_toNat_eq (by simp [BitVec.toNat_add])

theorem Update.pc_eq {i : Instr} {s u : State} (h : Update i s u) : u.pc = s.pc := by
  cases h <;> rfl

theorem Effect.advance {i : Instr} {s u : State} (h : Update i s u) (hi : pcAfter i s = s.pc + 2) :
    Effect i s u.advance := by
  rw [State.advance, h.pc_eq, ← hi]
  exact .completes h

/-- A guarded access has the effect of its body, or faults. -/
theorem Effect.touching {i : Instr} {s : State} {base len : Nat} {k : State → State}
    (h : blockInRange base len = true → Effect i s (k s)) : Effect i s (s.touching base len k) := by
  unfold State.touching
  split
  · next hin => exact h hin
  · exact .faults _ _ (faultInfoAgrees_addressOutOfRange base)

theorem Effect.ret (s : State) : ∃ t, exec .ret s = .next t ∧ Effect .ret s t := by
  rcases s.stack.eq_nil_or_concat' with h | ⟨rest, a, h⟩
  · refine ⟨s.raise .emptyStackReturn 0, ?_, .faults _ _ (faultInfoAgrees_zero nofun)⟩
    simp [exec, execRet, pop_of_empty h]
  · have hp : pcAfter .ret s = a := by simp [pcAfter, h]
    refine ⟨_, ?_, .completes (.popped rfl)⟩
    simp [exec, execRet, pop_of_append h, hp, h]

theorem Effect.call (s : State) (nnn : Addr12) :
    ∃ t, exec (.call nnn) s = .next t ∧ Effect (.call nnn) s t := by
  refine ⟨_, rfl, ?_⟩
  split
  · exact .faults _ _ (faultInfoAgrees_zero nofun)
  · next h =>
    rw [zextAddr_eq_ofNat]
    exact .completes (.pushed ⟨nnn, rfl⟩ (mt (stackFull_iff s).2 h))

/-- A conditional skip changes `pc` only (R24). -/
theorem Effect.skipIf {i : Instr} {s : State} {c : Bool} (h : pcAfter i s = (s.skipIf c).pc) :
    Effect i s (s.skipIf c) := by
  have he : s.skipIf c = s.setPc (pcAfter i s) := by rw [h]; rfl
  rw [he]; exact .completes .nothing

/-- Every instruction answers a next state, and what it is (R103, R105). -/
theorem exec_effect (i : Instr) (s : State) : ∃ t, exec i s = .next t ∧ Effect i s t := by
  cases i with
  | cls => exact ⟨_, rfl, .advance (.pixels s.V Framebuffer.clear (.inl rfl) fun _ _ => rfl) rfl⟩
  | ret => exact Effect.ret s
  | call nnn => exact Effect.call s nnn
  | jp nnn =>
    refine ⟨_, rfl, ?_⟩
    rw [zextAddr_eq_ofNat]; exact .completes .nothing
  | jprel nnn =>
    refine ⟨_, rfl, ?_⟩
    rw [add_zext_eq_ofNat]; exact .completes .nothing
  | seqi x nn | snei x nn | seq x y | sne x y =>
    exact ⟨_, rfl, .skipIf (by simp [pcAfter, add_ite])⟩
  | ldi x nn | addi x nn | mov x y | or x y | and x y | xor x y | shr x y | shl x y | gdt x =>
    exact ⟨_, rfl, .advance (.writeReg _ rfl) rfl⟩
  | add x y => exact ⟨_, rfl, .advance (.writeReg_writeReg _ _ (.inl rfl) (.inr rfl)) rfl⟩
  | sub x y | subr x y =>
    exact ⟨_, rfl, .advance (.writeReg_writeReg _ _ (.inr rfl) (.inl rfl)) rfl⟩
  | rnd x nn => exact ⟨_, rfl, .advance (.random x nn _ rfl) rfl⟩
  | seti nnn => exact ⟨_, rfl, .advance (.index _ (.inl ⟨nnn, rfl⟩)) rfl⟩
  | iadd x => exact ⟨_, rfl, .advance (.index _ (.inr (.inl ⟨x, rfl⟩))) rfl⟩
  | font x => exact ⟨_, rfl, .advance (.index _ (.inr (.inr ⟨x, rfl⟩))) rfl⟩
  | sdt x => exact ⟨_, rfl, .advance (.delayTimer _ ⟨x, rfl⟩) rfl⟩
  | sst x => exact ⟨_, rfl, .advance (.soundTimer _ ⟨x, rfl⟩) rfl⟩
  | skp x | sknp x | wkey x => exact ⟨_, rfl, .advance .nothing rfl⟩
  | unrecognised f x y n => exact ⟨_, rfl, .advance (.logged _ ⟨f, x, y, n, rfl⟩) rfl⟩
  | drw x y n => exact ⟨_, rfl, .touching fun _ => .advance (.drawRows s x y n _ _ _) rfl⟩
  | ldm x => exact ⟨_, rfl, .touching fun _ => .advance (.writeRegs s x _) rfl⟩
  | bcd x => exact ⟨_, rfl, .touching fun hin => .advance (.bytes _ _ (.inl ⟨x, rfl⟩) hin) rfl⟩
  | stm x =>
    refine ⟨_, rfl, .touching fun hin => .advance (.bytes _ _ (.inr ⟨x, rfl⟩) ?_) rfl⟩
    rwa [length_regsUpTo]

/-- Whatever an instruction answers is an effect of it. -/
theorem effect_of_exec {i : Instr} {s t : State} (h : exec i s = .next t) : Effect i s t := by
  obtain ⟨u, hu, he⟩ := exec_effect i s
  cases hu.symm.trans h
  exact he

/-! ## The end of a step -/

theorem endStep_cases (t : State) :
    t.endStep = t ∨ (t.status = .running ∧ t.endStep = t.pump) := by
  unfold State.endStep
  split
  · next h => exact .inr ⟨h, rfl⟩
  · exact .inl rfl
  · exact .inl rfl

/-- What the pump leaves alone, the end of a step leaves alone (R106). -/
theorem endStep_same {α : Type} (f : State → α) {t : State} (h : f t.pump = f t) :
    f t.endStep = f t := by
  rcases endStep_cases t with e | ⟨-, e⟩
  · rw [e]
  · rw [e, h]

section
variable (t : State)
@[simp] theorem endStep_V : t.endStep.V = t.V := endStep_same State.V rfl
@[simp] theorem endStep_pc : t.endStep.pc = t.pc := endStep_same State.pc rfl
@[simp] theorem endStep_I : t.endStep.I = t.I := endStep_same State.I rfl
@[simp] theorem endStep_DT : t.endStep.DT = t.DT := endStep_same State.DT rfl
@[simp] theorem endStep_ST : t.endStep.ST = t.ST := endStep_same State.ST rfl
@[simp] theorem endStep_memory : t.endStep.memory = t.memory := endStep_same State.memory rfl
@[simp] theorem endStep_stack : t.endStep.stack = t.stack := endStep_same State.stack rfl
@[simp] theorem endStep_fb : t.endStep.fb = t.fb := endStep_same State.fb rfl
@[simp] theorem endStep_faultRecord : t.endStep.faultRecord = t.faultRecord :=
  endStep_same State.faultRecord rfl
@[simp] theorem endStep_flag : t.endStep.flag = t.flag := endStep_same State.flag rfl
@[simp] theorem endStep_stackDepth : t.endStep.stackDepth = t.stackDepth :=
  endStep_same State.stackDepth rfl
@[simp] theorem endStep_log : t.endStep.log = t.log := endStep_same State.log rfl
@[simp] theorem endStep_randomQueue : t.endStep.randomQueue = t.randomQueue :=
  endStep_same State.randomQueue rfl
@[simp] theorem endStep_randomCount : t.endStep.randomCount = t.randomCount :=
  endStep_same State.randomCount rfl
end

/-! ## The invariant (R25, R30, R32, R36, R37) -/

theorem recordAgrees_of_running {s : State} (h : s.status = .running) :
    s.RecordAgrees ↔ s.faultRecord = none := by
  rw [State.RecordAgrees, h]

theorem toNat_add_le (a b : Addr) : (a + b).toNat ≤ a.toNat + b.toNat := by
  rw [BitVec.toNat_add]; exact Nat.mod_le _ _

/-- The largest `pc` an instruction that was fetched can produce is `JPREL`'s, 4094 + 4095 + 255
(R25). -/
theorem toNat_pcAfter_le (i : Instr) {s : State} (hp : s.pc.toNat ≤ 4094)
    (he : ∀ a ∈ s.stack, a.toNat ≤ 4096) : (pcAfter i s).toNat ≤ 8444 := by
  have h2 : (s.pc + 2).toNat ≤ 8444 := (toNat_add_le s.pc 2).trans (by simp; omega)
  have h4 : (s.pc + 4).toNat ≤ 8444 := (toNat_add_le s.pc 4).trans (by simp; omega)
  cases i with
  | jp nnn | call nnn =>
    have := nnn.isLt
    simp only [pcAfter, BitVec.toNat_ofNat]; omega
  | jprel nnn =>
    have := nnn.isLt
    have := (s.readReg 0).isLt
    simp only [pcAfter, BitVec.toNat_ofNat]; omega
  | ret =>
    rcases s.stack.eq_nil_or_concat' with h | ⟨rest, a, h⟩
    · simp [pcAfter, h]; omega
    · have := he a (by simp [h])
      simp [pcAfter, h]; omega
  | seqi x nn | snei x nn | seq x y | sne x y =>
    simp only [pcAfter]
    split <;> assumption
  | _ => exact h2

/-- A fault keeps the invariant: it leaves everything but the record as it was (R204). -/
theorem State.Inv.raise {s : State} (hs : s.Inv) {c : Cause} {info : Nat}
    (h : FaultInfoAgrees c info) : (s.raise c info).Inv where
  memory_wf := hs.memory_wf
  record := ⟨info, rfl, h⟩
  depth := hs.depth
  entries := hs.entries
  pc_bound := hs.pc_bound

theorem Update.status_eq {i : Instr} {s u : State} (h : Update i s u) : u.status = s.status := by
  cases h <;> rfl

theorem Update.faultRecord_eq {i : Instr} {s u : State} (h : Update i s u) :
    u.faultRecord = s.faultRecord := by
  cases h <;> rfl

theorem Update.stackDepth_eq {i : Instr} {s u : State} (h : Update i s u) :
    u.stackDepth = s.stackDepth := by
  cases h <;> rfl

theorem Update.memory_wf {i : Instr} {s u : State} (h : Update i s u) (hs : s.memory.wf = true) :
    u.memory.wf = true := by
  cases h with
  | bytes base vs _ hin => exact Memory.wf_store hin hs
  | _ => exact hs

/-- The stack grows by `CALL` only, which needs room for the entry (R121). -/
theorem Update.length_stack_le {i : Instr} {s u : State} (h : Update i s u) {d : Nat}
    (hd : s.stackDepth = some d) (hs : s.stack.length ≤ d) : u.stack.length ≤ d := by
  cases h with
  | pushed _ hfull =>
    have hne : d ≠ s.stack.length := fun e => hfull (e ▸ hd)
    rw [push_stack, List.length_append, List.length_singleton]; omega
  | popped _ => exact (List.dropLast_sublist _).length_le.trans hs
  | _ => exact hs

theorem Update.entries_le {i : Instr} {s u : State} (h : Update i s u) (hp : s.pc.toNat ≤ 4094)
    (hs : ∀ a ∈ s.stack, a.toNat ≤ 4096) : ∀ a ∈ u.stack, a.toNat ≤ 4096 := by
  cases h with
  | pushed _ _ =>
    intro a ha
    rcases List.mem_append.1 ha with ha | ha
    · exact hs a ha
    · rw [List.mem_singleton.1 ha]
      exact (toNat_add_le s.pc 2).trans (Nat.add_le_add_right hp 2)
  | popped _ => exact fun a ha => hs a (List.mem_of_mem_dropLast ha)
  | _ => exact hs

/-- An instruction that was fetched keeps the invariant. -/
theorem State.Inv.exec {i : Instr} {s t : State} (hs : s.Inv) (hr : s.status = .running)
    (hp : s.pc.toNat ≤ 4094) (h : exec i s = .next t) : t.Inv := by
  cases effect_of_exec h with
  | faults c info hc => exact hs.raise hc
  | @completes u hu =>
    have hur : (u.setPc (pcAfter i s)).status = .running := hu.status_eq.trans hr
    exact {
      memory_wf := hu.memory_wf hs.memory_wf
      record := (recordAgrees_of_running hur).2
        (hu.faultRecord_eq.trans ((recordAgrees_of_running hr).1 hs.record))
      depth := fun d hd =>
        have hd' : s.stackDepth = some d := hu.stackDepth_eq.symm.trans hd
        hu.length_stack_le hd' (hs.depth d hd')
      entries := hu.entries_le hp hs.entries
      pc_bound := toNat_pcAfter_le i hp hs.entries }

/-- The pump writes the status, never the fault record: a machine it stops has none (R106). -/
theorem State.Inv.pump {t : State} (ht : t.Inv) (hr : t.status = .running) : t.pump.Inv where
  memory_wf := ht.memory_wf
  record := by
    have hn := (recordAgrees_of_running hr).1 ht.record
    rw [State.RecordAgrees, pump_status]
    cases t.nextOpen <;> exact hn
  depth := ht.depth
  entries := ht.entries
  pc_bound := ht.pc_bound

theorem State.Inv.endStep {t : State} (ht : t.Inv) : t.endStep.Inv := by
  rcases endStep_cases t with e | ⟨hr, e⟩
  · rwa [e]
  · rw [e]; exact ht.pump hr

/-- Settles O15: a fetch fault, every instruction and the end of the step keep the invariant. -/
theorem stepKeepsInvariant : Obligations.StepKeepsInvariant := by
  intro s t hs h
  obtain ⟨hr, ⟨-, rfl⟩ | ⟨hp, u, hu, rfl⟩⟩ := step_cases h
  · exact hs.raise (faultInfoAgrees_addressOutOfRange _)
  · exact (hs.exec hr hp hu).endStep

/-- Settles O16. -/
theorem resetHasInvariant : Obligations.ResetHasInvariant where
  memory_wf := rfl
  record := rfl
  depth _ h := by cases h
  entries _ h := by cases h
  pc_bound := by decide

/-! ## What instructions and steps change (R22, R24, R27 to R34, R42, R44) -/

/-- Settles O18: an instruction that leaves the machine running has set `pc` to `pcAfter`, one that
does not has raised a fault. -/
theorem pcAfterEveryInstruction : Obligations.PcAfterEveryInstruction := by
  intro i s t hr h
  cases effect_of_exec h with
  | faults c info _ => exact ⟨fun e => (nomatch e), fun _ => rfl⟩
  | @completes u hu =>
    have hur : (u.setPc (pcAfter i s)).status = .running := hu.status_eq.trans hr
    exact ⟨fun _ => rfl, fun hn => absurd hur hn⟩

theorem Update.readReg_eq {i : Instr} {s u : State} (h : Update i s u) {r : RegIx}
    (hr : ¬ mayWriteReg i s r) : u.readReg r = s.readReg r := by
  cases h with
  | registers V hV => exact hV r hr
  | pixels V fb _ hV => exact hV r hr
  | random x nn v hi =>
    subst hi
    exact (readReg_writeReg _ _ _ _).trans (if_neg hr)
  | _ => rfl

/-- Settles O19: a fault writes no register, and an update writes the listed ones. -/
theorem registersWrittenAreTheListed : Obligations.RegistersWrittenAreTheListed := by
  intro i s t r h hr
  cases effect_of_exec h with
  | faults c info _ => rfl
  | completes hu => exact hu.readReg_eq hr

/-- Each piece of the state that differs between `s` and `t` is one that `i` is named for. -/
def ChangesOnlyTheNamed (i : Instr) (s t : State) : Prop :=
  (t.I ≠ s.I → (∃ a, i = .seti a) ∨ (∃ x, i = .iadd x) ∨ (∃ x, i = .font x)) ∧
  (t.DT ≠ s.DT → ∃ x, i = .sdt x) ∧
  (t.ST ≠ s.ST → ∃ x, i = .sst x) ∧
  (t.memory ≠ s.memory → (∃ x, i = .bcd x) ∨ (∃ x, i = .stm x)) ∧
  (t.stack ≠ s.stack → i = .ret ∨ (∃ a, i = .call a)) ∧
  (t.fb ≠ s.fb → i = .cls ∨ (∃ x y n, i = .drw x y n)) ∧
  (t.randomQueue ≠ s.randomQueue → ∃ x nn, i = .rnd x nn) ∧
  (t.randomCount ≠ s.randomCount → ∃ x nn, i = .rnd x nn) ∧
  (t.log ≠ s.log → ∃ f x y n, i = .unrecognised f x y n) ∧
  t.flag = s.flag ∧ t.stackDepth = s.stackDepth

theorem changesOnlyTheNamed_raise (i : Instr) (s : State) (c : Cause) (info : Nat) :
    ChangesOnlyTheNamed i s (s.raise c info) := by
  simp [ChangesOnlyTheNamed]

theorem Update.changesOnlyTheNamed {i : Instr} {s u : State} (h : Update i s u) :
    ChangesOnlyTheNamed i s u := by
  unfold ChangesOnlyTheNamed
  cases h with
  | nothing | registers => simp
  | index _ hi | delayTimer _ hi | soundTimer _ hi | bytes _ _ hi | pushed hi | popped hi
  | pixels _ _ hi | random _ _ _ hi | logged _ hi => simp [hi]

/-- The end of a step changes none of the pieces named (R106). -/
theorem changesOnlyTheNamed_endStep {i : Instr} {s t : State} (h : ChangesOnlyTheNamed i s t) :
    ChangesOnlyTheNamed i s t.endStep := by
  simpa [ChangesOnlyTheNamed] using h

/-- Settles O20. -/
theorem stateChangesOnlyByItsInstructions : Obligations.StateChangesOnlyByItsInstructions := by
  intro s t i h hi
  change ChangesOnlyTheNamed i s t
  obtain ⟨-, ⟨-, rfl⟩ | ⟨-, u, hu, rfl⟩⟩ := step_cases h
  · exact changesOnlyTheNamed_raise i s _ _
  · rw [← hi] at hu
    refine changesOnlyTheNamed_endStep ?_
    cases effect_of_exec hu with
    | faults c info _ => exact changesOnlyTheNamed_raise i s c info
    | completes hv => exact hv.changesOnlyTheNamed

/-! ## Nothing reads the sound timer, the log or the frame last shown (R29, R44)

Two states agree on what is read when they are the same once the three fields are blanked. `exec`
and `step` answer the same from a state and from its blanked form, up to blanking the answer. -/

/-- The state with the fields that nothing reads set to fixed values. -/
def State.blank (s : State) : State := { s with ST := 0, log := [], shown := none }

/-- The outcome with its next state blanked. -/
def blankOut : Out → Out
  | .next s => .next s.blank
  | .fault f => .fault f
  | .refused r => .refused r

theorem agreeButUnread_iff (s t : State) : AgreeButUnread s t ↔ t.blank = s.blank := by
  constructor
  · intro h
    rw [h]; rfl
  · exact congrArg fun u : State => { u with ST := t.ST, log := t.log, shown := t.shown }

theorem outcomesAgreeButUnread_of_blankOut {o p : Out} (h : blankOut p = blankOut o) :
    OutcomesAgreeButUnread o p := by
  cases o with
  | next s =>
    cases p with
    | next t => exact (agreeButUnread_iff s t).2 (Host.Outcome.next.inj h)
    | fault _ | refused _ => cases h
  | fault f =>
    cases p with
    | fault g => cases h; rfl
    | next _ | refused _ => cases h
  | refused q =>
    cases p with
    | refused r => cases h; rfl
    | next _ | fault _ => cases h

theorem drawRow_blank (s : State) (cx cy : Byte) (row : Nat) (b : Byte) :
    s.blank.drawRow cx cy row b = (s.drawRow cx cy row b).blank :=
  List.foldl_hom State.blank fun _ _ => rfl

theorem drawRows_blank (s : State) (cx cy : Byte) (row : Nat) (bs : List Byte) :
    s.blank.drawRows cx cy row bs = (s.drawRows cx cy row bs).blank := by
  induction bs generalizing s row with
  | nil => rfl
  | cons b bs ih => rw [State.drawRows, drawRow_blank, ih]; rfl

theorem writeRegs_blank (s : State) (k : Nat) (vs : List Byte) :
    s.blank.writeRegs k vs = (s.writeRegs k vs).blank := by
  induction vs generalizing s k with
  | nil => rfl
  | cons v vs ih => exact ih (s.writeReg (BitVec.ofNat 4 k) v) (k + 1)

theorem advance_blank_of_eq {t u : State} (h : t = u.blank) :
    t.advance.blank = u.advance.blank := by
  rw [h]; rfl

/-- A guarded access reads nothing that is blanked if its body does not. -/
theorem touching_blank {k l : State → State} {s : State} (h : (k s.blank).blank = (l s).blank)
    (base len : Nat) : (s.blank.touching base len k).blank = (s.touching base len l).blank := by
  unfold State.touching
  split
  · exact h
  · rfl

theorem execRet_blank (s : State) : blankOut (execRet s.blank) = blankOut (execRet s) := by
  rcases s.stack.eq_nil_or_concat' with h | ⟨rest, a, h⟩
  · have hb : s.blank.stack = [] := h
    simp only [execRet, pop_of_empty h, pop_of_empty hb]; rfl
  · have hb : s.blank.stack = rest ++ [a] := h
    simp only [execRet, pop_of_append h, pop_of_append hb]; rfl

theorem execCall_blank (nnn : Addr12) (s : State) :
    blankOut (execCall nnn s.blank) = blankOut (execCall nnn s) := by
  have hb : s.blank.stackFull = s.stackFull := rfl
  unfold execCall
  rw [hb]
  split <;> rfl

/-- No instruction reads what is blanked. -/
theorem exec_blank (i : Instr) (s : State) : blankOut (exec i s.blank) = blankOut (exec i s) := by
  cases i with
  | ret => exact execRet_blank s
  | call nnn => exact execCall_blank nnn s
  | drw x y n =>
    refine congrArg Host.Outcome.next (touching_blank ?_ _ _)
    exact advance_blank_of_eq (drawRows_blank s _ _ 0 _)
  | ldm x =>
    refine congrArg Host.Outcome.next (touching_blank ?_ _ _)
    exact advance_blank_of_eq (writeRegs_blank s 0 _)
  | bcd x | stm x => exact congrArg Host.Outcome.next (touching_blank rfl _ _)
  | _ => rfl

theorem endStep_blank (t : State) : t.blank.endStep.blank = t.endStep.blank := by
  have hb : t.blank.status = t.status := rfl
  unfold State.endStep
  rw [hb]
  split <;> rfl

theorem stepFetched_blank (s : State) (b0 b1 : Byte) :
    blankOut (stepFetched s.blank b0 b1) = blankOut (stepFetched s b0 b1) := by
  obtain ⟨t, ht, -⟩ := exec_effect (decodeBytes b0 b1) s
  obtain ⟨u, hu, -⟩ := exec_effect (decodeBytes b0 b1) s.blank
  have hut : u.blank = t.blank := by
    have h := exec_blank (decodeBytes b0 b1) s
    rw [ht, hu] at h
    exact Host.Outcome.next.inj h
  rw [stepFetched_of_next ht, stepFetched_of_next hu]
  refine congrArg Host.Outcome.next ?_
  rw [← endStep_blank u, hut, endStep_blank t]

theorem step_blank (s : State) : blankOut (step s.blank) = blankOut (step s) := by
  have hb : s.blank.status = s.status := rfl
  have hf : s.blank.fetch = s.fetch := rfl
  unfold step
  rw [hb, hf]
  split
  · rfl
  · rfl
  · split
    · exact stepFetched_blank s _ _
    · rfl

/-- Settles O21: blanked, the two states are the same, and so are their outcomes. -/
theorem soundTimerAndLogAreNeverRead : Obligations.SoundTimerAndLogAreNeverRead := by
  intro s t h
  apply outcomesAgreeButUnread_of_blankOut
  rw [← step_blank s, ← step_blank t, (agreeButUnread_iff s t).1 h]

/-! ## The canonical form of memory (R30) -/

/-- What `wfFrom` says of a first cell and the cells after it. -/
theorem Memory.wfFrom_cons {lo a : Nat} {v : Byte} {m : Memory} :
    Memory.wfFrom lo ((a, v) :: m) = true ↔
      lo ≤ a ∧ a ≤ Config.lastAddr ∧ v ≠ Memory.unlisted a ∧ Memory.wfFrom (a + 1) m = true := by
  simp [Memory.wfFrom, and_assoc]

theorem Memory.read_cons_self (a : Nat) (v : Byte) (m : Memory) :
    Memory.read ((a, v) :: m) a = v := if_pos rfl

theorem Memory.read_cons_of_ne {a c : Nat} (h : c ≠ a) (v : Byte) (m : Memory) :
    Memory.read ((a, v) :: m) c = m.read c := if_neg h

/-- The first cell of a canonical list tells it from every list whose cells all lie above it. -/
theorem Memory.read_ne_of_wfFrom {lo lo' a : Nat} {v : Byte} {m n : Memory}
    (hm : Memory.wfFrom lo ((a, v) :: m) = true) (hn : Memory.wfFrom lo' n = true) (h : a < lo') :
    Memory.read ((a, v) :: m) a ≠ n.read a := by
  obtain ⟨-, -, hv, -⟩ := Memory.wfFrom_cons.1 hm
  rwa [Memory.read_cons_self, Memory.read_of_lt_wfFrom h hn]

/-- Two canonical lists that read the same begin with the same cell, since the lower of two first
cells would tell them apart, and then their tails read the same too. -/
theorem Memory.eq_of_wfFrom {lo lo' : Nat} {m n : Memory} (hm : Memory.wfFrom lo m = true)
    (hn : Memory.wfFrom lo' n = true) (h : ∀ a, m.read a = n.read a) : m = n := by
  induction m generalizing lo lo' n with
  | nil =>
    cases n with
    | nil => rfl
    | cons d n =>
      have hm' : Memory.wfFrom (d.1 + 1) [] = true := rfl
      exact absurd (h d.1).symm (Memory.read_ne_of_wfFrom hn hm' (Nat.lt_succ_self _))
  | cons c m ih =>
    cases n with
    | nil =>
      have hn' : Memory.wfFrom (c.1 + 1) [] = true := rfl
      exact absurd (h c.1) (Memory.read_ne_of_wfFrom hm hn' (Nat.lt_succ_self _))
    | cons d n =>
      obtain ⟨a, v⟩ := c
      obtain ⟨b, w⟩ := d
      obtain ⟨_, ha, hv, htm⟩ := Memory.wfFrom_cons.1 hm
      obtain ⟨_, hb, hw, htn⟩ := Memory.wfFrom_cons.1 hn
      have hab : a = b := by
        rcases Nat.lt_trichotomy a b with hlt | he | hlt
        · have hn' := Memory.wfFrom_cons.2 ⟨le_refl b, hb, hw, htn⟩
          exact absurd (h a) (Memory.read_ne_of_wfFrom hm hn' hlt)
        · exact he
        · have hm' := Memory.wfFrom_cons.2 ⟨le_refl a, ha, hv, htm⟩
          exact absurd (h b).symm (Memory.read_ne_of_wfFrom hn hm' hlt)
      subst hab
      have hvw : v = w := by simpa only [Memory.read_cons_self] using h a
      have htail : ∀ x, Memory.read m x = Memory.read n x := fun x => by
        by_cases hx : x = a
        · have hlt : x < a + 1 := by omega
          rw [Memory.read_of_lt_wfFrom hlt htm, Memory.read_of_lt_wfFrom hlt htn]
        · simpa only [Memory.read_cons_of_ne hx] using h x
      rw [hvw, ih htm htn htail]

/-- Settles O47. -/
theorem canonicalMemoryIsUnique : Obligations.CanonicalMemoryIsUnique :=
  fun _ _ => Memory.eq_of_wfFrom

/-! ## Reset (R30, R46, R230) -/

/-- Every address the default glyphs do not reach reads as zero. -/
theorem Memory.unlisted_of_le {a : Nat} (h : Config.fontLen ≤ a) : Memory.unlisted a = 0 :=
  List.getD_eq_default _ _ h

/-- The machine that construction gives when the ROM fits (R230). -/
def State.constructed (font : Vector Byte 80) (rom : List Byte) (flag : RegIx)
    (depth : Option Nat) : State :=
  { State.reset with
    memory := (Memory.store [] 0 font.toList).store Config.romBase rom
    flag := flag
    stackDepth := depth }

section
variable {font : Vector Byte 80} {rom : List Byte} {flag : RegIx} {depth : Option Nat}

theorem construct_of_fits (h : rom.length ≤ 3584) :
    construct font rom flag depth = .next (.constructed font rom flag depth) := if_pos h

theorem eq_constructed_of_construct {t : State} (h : construct font rom flag depth = .next t) :
    t = .constructed font rom flag depth := by
  unfold construct at h
  split at h
  · exact (Host.Outcome.next.inj h).symm
  · cases h

/-- What an address reads as after construction (R30). -/
theorem readByte_constructed (a : Nat) :
    (State.constructed font rom flag depth).readByte a =
      if 512 ≤ a then (rom[a - 512]?).getD ((font[a]?).getD (Memory.unlisted a))
      else (font[a]?).getD (Memory.unlisted a) := by
  simp [State.readByte, State.constructed, Memory.read_store, Config.romBase, Memory.read]

end

/-- Settles O31. -/
theorem flagRegisterIsVF : Obligations.FlagRegisterIsVF := by
  refine ⟨rfl, fun font rom flag depth t h => ?_⟩
  rw [eq_constructed_of_construct h]
  exact ⟨rfl, rfl⟩

/-- Settles O54: no glyph reaches beyond 79, and no ROM below 512. -/
theorem constructedMemory : Obligations.ConstructedMemory := by
  intro font rom flag depth hrom
  refine ⟨_, construct_of_fits hrom, fun a h => ?_, fun k h => ?_, fun a h1 h2 => ?_,
    fun a h1 _ => ?_⟩ <;> rw [readByte_constructed]
  · have hlt : ¬ 512 ≤ a := by omega
    simp [hlt, h]
  · simp [h]
  · have hlt : ¬ 512 ≤ a := by omega
    have h80 : ¬ a < 80 := by omega
    simp [hlt, h80, Memory.unlisted_of_le h1]
  · have hge : 512 ≤ a := by omega
    have h80 : 80 ≤ a := by omega
    have hout : rom.length ≤ a - 512 := by omega
    simp [hge, hout, h80, Memory.unlisted_of_le h80]

/-- Settles O53: the glyphs are what the empty memory reads as. -/
theorem resetState : Obligations.ResetState := by
  refine ⟨rfl, fun r => ?_, rfl, rfl, rfl, rfl, fun c r => ?_, rfl, rfl,
    fun a h => ?_, fun a h => ?_⟩
  · exact Vector.getElem_replicate r.isLt
  · exact getPixel_clearPixels State.reset c r
  · rw [List.getElem?_eq_getElem h]
    exact congrArg some (List.getD_eq_getElem _ _ h).symm
  · exact Memory.unlisted_of_le h

end Sys2Proof.Machine

namespace Sys2Proof.Machine

/-! ## A ROM that does not fit (R71, R222) -/

/-- Settles O55: the length check of `construct` fails. -/
theorem longRomIsRefused : Obligations.LongRomIsRefused :=
  fun _ _ _ _ h => if_neg (Nat.not_le_of_lt h)

/-! ## Stores and the fetch that follows (R56, R67) -/

/-- Where a block was stored, its bytes are read back (R57). -/
theorem readByte_storeBytes_of_getElem? {s : State} {base k : Nat} {vs : List Byte} {v : Byte}
    (h : vs[k]? = some v) : (s.storeBytes base vs).readByte (base + k) = v := by
  simp [readByte_storeBytes, h]

/-- `STM` in range stores the registers up to `x` and goes on (R165). -/
theorem exec_stm_inRange {s : State} {x : RegIx} (h : s.I.toNat + x.toNat ≤ 4095) :
    exec (.stm x) s = .next (s.storeBytes s.base (s.regsUpTo x)).advance :=
  congrArg Host.Outcome.next (touching_inRange (.inr (Nat.succ_le_succ h)))

/-- `BCD` in range stores the three digits and goes on (R163). -/
theorem exec_bcd_inRange {s : State} {x : RegIx} (h : s.I.toNat + 2 ≤ 4095) :
    exec (.bcd x) s = .next (s.storeBytes s.base (decimalDigits (s.readReg x))).advance :=
  congrArg Host.Outcome.next (touching_inRange (.inr (Nat.succ_le_succ h)))

/-- The bytes `BCD` stores are the hundreds, the tens and the ones, as numbers (R163). -/
theorem getElem?_decimalDigits {v : Byte} {k digit : Nat}
    (h : k = 0 ∧ digit = v.toNat / 100 ∨ k = 1 ∧ digit = v.toNat / 10 % 10 ∨
      k = 2 ∧ digit = v.toNat % 10) :
    ∃ b, (decimalDigits v)[k]? = some b ∧ b.toNat = digit := by
  have hv := v.isLt
  obtain ⟨rfl, rfl⟩ | ⟨rfl, rfl⟩ | ⟨rfl, rfl⟩ := h <;> refine ⟨_, rfl, ?_⟩ <;>
    simp only [BitVec.toNat_ofNat] <;> omega

/-- A fetch in range gives each stored byte that lies at one of its two addresses. -/
theorem fetch_advance_storeBytes {s : State} {base : Nat} {vs : List Byte}
    (hpc : (s.storeBytes base vs).advance.pc.toNat ≤ 4094) :
    ∃ b0 b1, (s.storeBytes base vs).advance.fetch = some (b0, b1) ∧
      ∀ k v, vs[k]? = some v →
        ((s.storeBytes base vs).advance.pc.toNat = base + k → b0 = v) ∧
        ((s.storeBytes base vs).advance.pc.toNat + 1 = base + k → b1 = v) := by
  refine ⟨_, _, fetch_inRange hpc, fun k v hv => ⟨fun e => ?_, fun e => ?_⟩⟩
  all_goals
    rw [e]
    exact readByte_storeBytes_of_getElem? hv

/-- Settles O46: the next fetch reads memory after the store, whatever addresses it covers. -/
theorem storeIsSeenByNextFetch : Obligations.StoreIsSeenByNextFetch := by
  refine fun x s t hpc => ⟨fun hI h => ?_, fun hI h => ?_⟩
  · cases (exec_stm_inRange hI).symm.trans h
    obtain ⟨b0, b1, hf, hb⟩ := fetch_advance_storeBytes (Nat.le_of_succ_le_succ hpc)
    refine ⟨b0, b1, hf, fun k hk => hb k.toNat _ ?_⟩
    rw [getElem?_regsUpTo hk, BitVec.ofNat_toNat, BitVec.setWidth_eq]
  · cases (exec_bcd_inRange hI).symm.trans h
    obtain ⟨b0, b1, hf, hb⟩ := fetch_advance_storeBytes (Nat.le_of_succ_le_succ hpc)
    refine ⟨b0, b1, hf, fun k digit hd => ?_⟩
    obtain ⟨v, hv, rfl⟩ := getElem?_decimalDigits hd
    obtain ⟨h0, h1⟩ := hb k v hv
    exact ⟨fun e => congrArg _ (h0 e), fun e => congrArg _ (h1 e)⟩

end Sys2Proof.Machine

namespace Sys2Proof

/-! ## The rows of the opcode map, said once (R84, R86, R103) -/

theorem digitAccepts_none (v : Nib) : digitAccepts none v = true := rfl

theorem digitAccepts_some (a v : Nib) : digitAccepts (some a) v = true ↔ v = a := by
  rw [eq_comm (a := v)]
  simp [digitAccepts]

/-- A pattern that fixes every digit accepts one word only (format `Z`). -/
@[simp] theorem accepts_fixed (a b c e : Nib) (d : Decoded) :
    (Pattern.mk a (some b) (some c) (some e)).accepts d = true ↔
      d.first = a ∧ d.x = b ∧ d.y = c ∧ d.n = e := by
  simp [Pattern.accepts, digitAccepts_some, eq_comm (a := a), and_assoc]

@[simp] theorem accepts_patClass (a : Nib) (d : Decoded) :
    (patClass a).accepts d = true ↔ d.first = a := by
  simp [Pattern.accepts, patClass, digitAccepts_none, eq_comm (a := a)]

@[simp] theorem accepts_patXY (a e : Nib) (d : Decoded) :
    (patXY a e).accepts d = true ↔ d.first = a ∧ d.n = e := by
  simp [Pattern.accepts, patXY, digitAccepts_none, digitAccepts_some, eq_comm (a := a)]

@[simp] theorem accepts_patXF (a c e : Nib) (d : Decoded) :
    (patXF a c e).accepts d = true ↔ d.first = a ∧ d.y = c ∧ d.n = e := by
  simp [Pattern.accepts, patXF, digitAccepts_none, digitAccepts_some, eq_comm (a := a), and_assoc]

theorem lt_of_getElem?_opcodeRows {k : Nat} {r : Row} (h : opcodeRows[k]? = some r) : k < 34 :=
  (List.getElem?_eq_some_iff.1 h).1

/-- The instruction a row makes has that row's order number (R86). -/
theorem rowNumber_make {k : Nat} {r : Row} (h : opcodeRows[k]? = some r) (d : Decoded) :
    rowNumber (r.make d) = k + 1 := by
  have order : opcodeRows.map (fun r => rowNumber (r.make d)) = List.range' 1 34 := rfl
  have hk : opcodeRows[k]?.map (fun r => rowNumber (r.make d)) = (List.range' 1 34)[k]? := by
    rw [← List.getElem?_map, order]
  rw [h, Option.map_some, eq_comm, List.getElem?_eq_some_iff] at hk
  obtain ⟨_, hk⟩ := hk
  rw [← hk, List.getElem_range', Nat.one_mul, Nat.add_comm]

/-- The index of the first row that accepts a record, 34 if none does (R103). -/
def firstRow (d : Decoded) : Nat := opcodeRows.findIdx (fun r => r.pat.accepts d)

/-- What dispatch can do: it takes the first row that accepts the record, or no row accepts it and
the instruction is the unrecognised pattern (R87, R103, R104). -/
theorem dispatch_cases (d : Decoded) :
    (∃ r, opcodeRows[firstRow d]? = some r ∧ r.pat.accepts d = true ∧ dispatch d = r.make d) ∨
    (firstRow d = 34 ∧ (∀ r ∈ opcodeRows, r.pat.accepts d = false) ∧
      dispatch d = .unrecognised d.first d.x d.y d.n) := by
  cases h : opcodeRows.find? (fun r => r.pat.accepts d) with
  | some r =>
    refine .inl ⟨r, ?_, List.find?_some (p := fun r : Row => r.pat.accepts d) h, ?_⟩
    · rw [← h, List.find?_eq_getElem?_findIdx, firstRow]
    · rw [dispatch, h]
  | none =>
    have hn : ∀ r ∈ opcodeRows, r.pat.accepts d = false := by simpa using h
    refine .inr ⟨List.findIdx_eq_length_of_false hn, hn, ?_⟩
    rw [dispatch, h]

/-- No row before the first accepting one accepts the record (R87). -/
theorem accepts_of_lt_firstRow {d : Decoded} {j : Nat} {r : Row} (hj : j < firstRow d)
    (h : opcodeRows[j]? = some r) : r.pat.accepts d = false := by
  obtain ⟨_, rfl⟩ := List.getElem?_eq_some_iff.1 h
  exact List.not_of_lt_findIdx hj

/-! ## Overlap of the rows (R87) -/

/-- Two digits of patterns can accept the same nibble. -/
def digitsMeet : Option Nib → Option Nib → Bool
  | some a, some b => a == b
  | some _, none => true
  | none, _ => true

/-- Two patterns can accept the same record. -/
def Pattern.meets (p q : Pattern) : Bool :=
  p.first == q.first && digitsMeet p.x q.x && digitsMeet p.y q.y && digitsMeet p.n q.n

theorem digitsMeet_of_accepts {p q : Option Nib} {v : Nib} (hp : digitAccepts p v = true)
    (hq : digitAccepts q v = true) : digitsMeet p q = true := by
  cases p with
  | none => rfl
  | some a =>
    cases q with
    | none => rfl
    | some b => simp_all [digitsMeet, digitAccepts_some]

theorem Pattern.meets_of_accepts {p q : Pattern} {d : Decoded} (hp : p.accepts d = true)
    (hq : q.accepts d = true) : p.meets q = true := by
  simp only [Pattern.accepts, Bool.and_eq_true, beq_iff_eq] at hp hq
  obtain ⟨⟨⟨hf, hx⟩, hy⟩, hn⟩ := hp
  obtain ⟨⟨⟨hf', hx'⟩, hy'⟩, hn'⟩ := hq
  simp only [Pattern.meets, Bool.and_eq_true, beq_iff_eq]
  exact ⟨⟨⟨hf.trans hf'.symm, digitsMeet_of_accepts hx hx'⟩, digitsMeet_of_accepts hy hy'⟩,
    digitsMeet_of_accepts hn hn'⟩

/-- Among the 34 patterns only the first two meet a later one, the third. -/
theorem meets_later_row : ∀ k : Fin 34, ∀ j : Fin k,
    (opcodeRows[j.1]'(j.2.trans k.2)).pat.meets (opcodeRows[k.1]'k.2).pat = true →
      (j.1 = 0 ∨ j.1 = 1) ∧ k.1 = 2 := by
  decide

/-- Settles O6: the patterns of two rows that accept one record agree on every digit both fix, and
the 34 patterns are compared pair by pair. -/
theorem onlyClsAndRetOverlapCall : Obligations.OnlyClsAndRetOverlapCall := by
  intro d j k rj rk hjk hj hk haj hak
  obtain ⟨_, rfl⟩ := List.getElem?_eq_some_iff.1 hj
  obtain ⟨hk34, rfl⟩ := List.getElem?_eq_some_iff.1 hk
  exact meets_later_row ⟨k, hk34⟩ ⟨j, hjk⟩ (Pattern.meets_of_accepts haj hak)

/-- A row that accepts a record is the one dispatch takes, unless it is row 3 and row 1 or 2 accepts
the record too (R87). -/
theorem dispatch_of_accepts {d : Decoded} {k : Nat} {r : Row} (hr : opcodeRows[k]? = some r)
    (ha : r.pat.accepts d = true)
    (h2 : k = 2 → ∀ r ∈ opcodeRows.take 2, r.pat.accepts d = false) : dispatch d = r.make d := by
  obtain ⟨r', hr', ha', hd⟩ | ⟨-, hn, -⟩ := dispatch_cases d
  · obtain hlt | heq | hgt := Nat.lt_trichotomy (firstRow d) k
    · obtain ⟨-, hk⟩ := onlyClsAndRetOverlapCall d _ _ r' r hlt hr' hr ha' ha
      have hmem : r' ∈ opcodeRows.take 2 :=
        List.mem_of_getElem? ((List.getElem?_take_of_lt (hk ▸ hlt)).trans hr')
      exact absurd (h2 hk r' hmem) (by simp [ha'])
    · rw [heq, hr] at hr'
      cases hr'
      exact hd
    · exact absurd (accepts_of_lt_firstRow hgt hr) (by simp [ha])
  · exact absurd (hn r (List.mem_of_getElem? hr)) (by simp [ha])

/-! ## The opcode table's masks and matches (R86) -/

/-- The mask of a pattern's digit: all ones where the digit is fixed. -/
def digitMask : Option Nib → Nib
  | none => 0
  | some _ => 0xF

/-- The mask of a pattern. -/
def Pattern.mask (p : Pattern) : Word16 :=
  formXYN 0xF (digitMask p.x) (digitMask p.y) (digitMask p.n)

/-- The match of a pattern: its fixed digits, and 0 where it leaves one open. -/
def Pattern.value (p : Pattern) : Word16 :=
  formXYN p.first (p.x.getD 0) (p.y.getD 0) (p.n.getD 0)

theorem tableMaskMatch_eq : tableMaskMatch = opcodeRows.map (fun r => (r.pat.mask, r.pat.value)) := by
  decide

theorem and_digitMask (p : Option Nib) (v : Nib) :
    v &&& digitMask p = p.getD 0 ↔ digitAccepts p v = true := by
  cases p with
  | none => simp [digitMask, digitAccepts_none]
  | some a => rw [digitMask, Laws.MatchesRow.and_ones, Option.getD_some, digitAccepts_some]

/-- A pattern accepts the record of a word exactly when the word matches its mask and match. -/
theorem Pattern.accepts_decodeFields (p : Pattern) (b0 b1 : Byte) :
    p.accepts (decodeFields b0 b1) = (wordOf b0 b1 &&& p.mask == p.value) := by
  rw [Bool.eq_iff_iff, beq_iff_eq, ← formXYN_nibs, Pattern.mask, Pattern.value, formXYN_and,
    formXYN_inj, and_digitMask, and_digitMask, and_digitMask, Laws.MatchesRow.and_ones]
  simp [Pattern.accepts, decodeFields, eq_comm (a := p.first), and_assoc]

theorem rowNumber_dispatch (d : Decoded) : rowNumber (dispatch d) = firstRow d + 1 := by
  obtain ⟨r, hr, -, hd⟩ | ⟨h34, -, hd⟩ := dispatch_cases d
  · rw [hd, rowNumber_make hr]
  · rw [hd, h34, rowNumber]

/-- Settles O5: each pattern accepts the words that its mask and match select, so the first accepting
row is the first matching line of the table. -/
theorem decoderFollowsOpcodeTable : Obligations.DecoderFollowsOpcodeTable := by
  intro w
  rw [decodeWord, decodeBytes, rowNumber_dispatch, firstRow, tableMaskMatch_eq, List.findIdx_map]
  simp only [Pattern.accepts_decodeFields, wordOf_hiByte_loByte, Function.comp_def]

/-! ## The unrecognised words (R89) -/

/-- What holds of sixteen nibbles holds of all. -/
theorem forall_nib {P : Nib → Prop} (h : ∀ k : Fin 16, P (BitVec.ofNat 4 k)) (a : Nib) : P a := by
  simpa using h ⟨a.toNat, a.isLt⟩

/-- The list of R89 names the records that no row accepts. -/
theorem unrecognisedNibs_iff (d : Decoded) :
    unrecognisedNibs d.first d.y d.n = true ↔ ∀ r ∈ opcodeRows, r.pat.accepts d = false := by
  obtain ⟨first, x, y, n, nn, nnn⟩ := d
  simp only [← Bool.not_eq_true, opcodeRows, rowsControl, rowsAlu, rowsDraw, rowsMisc,
    List.forall_mem_append, List.forall_mem_cons, accepts_fixed, accepts_patClass, accepts_patXY,
    accepts_patXF]
  revert first
  refine forall_nib fun first => ?_
  fin_cases first <;> simp [unrecognisedNibs]
  -- Classes 8, E and F are left: there the list of R89 and the rows name different digits.
  · revert n
    exact forall_nib (by decide)
  · simp only [imp_iff_not_or]
  · simp only [imp_iff_not_or]
    exact Iff.of_eq (by ac_rfl)

/-- Settles O7: dispatch answers the unrecognised pattern exactly when no row accepts the record, for
the instruction of a row has another order number. -/
theorem unrecognisedWordsAreTheListed : Obligations.UnrecognisedWordsAreTheListed := by
  intro b0 b1
  have listed := unrecognisedNibs_iff (decodeFields b0 b1)
  obtain ⟨r, hr, ha, hd⟩ | ⟨-, hn, hd⟩ := dispatch_cases (decodeFields b0 b1)
  · have hne : unrecognisedNibs (hiNib b0) (hiNib b1) (loNib b1) ≠ true := fun h =>
      absurd (listed.1 h r (List.mem_of_getElem? hr)) (by simp [ha])
    refine ⟨fun h => absurd h hne, fun _ first x y n h => ?_⟩
    have hrow := rowNumber_make hr (decodeFields b0 b1)
    rw [← hd, show dispatch (decodeFields b0 b1) = _ from h, rowNumber] at hrow
    have := lt_of_getElem?_opcodeRows hr
    omega
  · exact ⟨fun _ => hd, fun h => absurd (listed.2 hn) (Bool.eq_false_iff.1 h)⟩

/-! ## The records of the formats, and the round trip (R84, R92) -/

/-- The record of a format `XI` word. -/
@[simp] theorem decodeFields_formXI (a x : Nib) (nn : Byte) :
    decodeFields (hiByte (formXI a x nn)) (loByte (formXI a x nn)) =
      ⟨a, x, hiNib nn, loNib nn, nn, join3 x (hiNib nn) (loNib nn)⟩ := by
  rw [formXI_eq, decodeFields_formXYN, joinNibs_hiNib_loNib]

/-- The record of a format `A` word. -/
@[simp] theorem decodeFields_formA (a : Nib) (nnn : Addr12) :
    decodeFields (hiByte (formA a nnn)) (loByte (formA a nnn)) =
      ⟨a, (nibs3 nnn).1, (nibs3 nnn).2.1, (nibs3 nnn).2.2,
        joinNibs (nibs3 nnn).2.1 (nibs3 nnn).2.2, nnn⟩ := by
  rw [formA_eq, decodeFields_formXYN, join3_nibs3]

theorem join3_inj {x y n x' y' n' : Nib} :
    join3 x y n = join3 x' y' n' ↔ x = x' ∧ y = y' ∧ n = n' := by
  refine ⟨fun h => ?_, by rintro ⟨rfl, rfl, rfl⟩; rfl⟩
  have h := congrArg BitVec.toNat h
  simp only [toNat_join3] at h
  have hy := y.isLt
  have hn := n.isLt
  have hy' := y'.isLt
  have hn' := n'.isLt
  simp only [← BitVec.toNat_inj]
  omega

theorem formA_join3 (a x y n : Nib) : formA a (join3 x y n) = formXYN a x y n := by
  have h := join3_nibs3 (join3 x y n)
  rw [join3_inj] at h
  obtain ⟨hx, hy, hn⟩ := h
  rw [formA_eq, hx, hy, hn]

theorem formXI_joinNibs (a x y n : Nib) : formXI a x (joinNibs y n) = formXYN a x y n := by
  rw [formXI_eq, hiNib_joinNibs, loNib_joinNibs]

/-- Every recognised instruction is the one that its row makes of its word. -/
theorem row_of_encode (i : Instr) (h : rowNumber i ≠ 35) :
    ∃ r, opcodeRows[rowNumber i - 1]? = some r ∧
      r.pat.accepts (decodeFields (hiByte (encode i)) (loByte (encode i))) = true ∧
      r.make (decodeFields (hiByte (encode i)) (loByte (encode i))) = i := by
  cases i with
  | unrecognised first x y n => exact absurd rfl h
  | cls | ret => exact ⟨_, rfl, by decide, rfl⟩
  | _ => exact ⟨_, rfl, by simp [encode, hiNib, loNib], by simp [encode]⟩

/-- The two class 0 words that are no `CALL` are those that row 1 or row 2 accepts (R87, R95). -/
theorem wf_call_iff {b0 b1 : Byte} (hf : (decodeFields b0 b1).first = 0) :
    (Instr.call (decodeFields b0 b1).nnn).wf = true ↔
      ∀ r ∈ opcodeRows.take 2, r.pat.accepts (decodeFields b0 b1) = false := by
  have rows : opcodeRows.take 2 =
      [⟨⟨0x0, some 0x0, some 0xE, some 0x0⟩, fun _ => .cls⟩,
       ⟨⟨0x0, some 0x0, some 0xE, some 0xE⟩, fun _ => .ret⟩] := rfl
  have nnn0 : (0x0E0 : Addr12) = join3 0x0 0xE 0x0 := rfl
  have nnn1 : (0x0EE : Addr12) = join3 0x0 0xE 0xE := rfl
  simp only [rows, List.forall_mem_cons, ← Bool.not_eq_true, accepts_fixed, hf, true_and]
  simp only [Instr.wf, nnn0, nnn1, decodeFields, Bool.and_eq_true, bne_iff_ne, ne_eq, join3_inj]
  simp

/-- Row by row the word of a well-formed instruction is dispatched to that instruction (R86, R95). -/
theorem decodeWord_encode {i : Instr} (h : i.wf = true) : decodeWord (encode i) = i := by
  have recognised (h35 : rowNumber i ≠ 35) (h2 : rowNumber i - 1 = 2 → ∀ r ∈ opcodeRows.take 2,
      r.pat.accepts (decodeFields (hiByte (encode i)) (loByte (encode i))) = false) :
      decodeWord (encode i) = i := by
    obtain ⟨r, hr, ha, hi⟩ := row_of_encode i h35
    exact (dispatch_of_accepts hr ha h2).trans hi
  cases i with
  | call nnn =>
    refine recognised (by simp [rowNumber]) fun _ => (wf_call_iff ?_).1 ?_
    · simp [encode]
    · simpa [encode] using h
  | unrecognised first x y n =>
    have := (unrecognisedWordsAreTheListed (joinNibs first x) (joinNibs y n)).1
    simpa [decodeWord, encode, formXYN] using this (by simpa [Instr.wf] using h)
  | _ => exact recognised (by simp [rowNumber]) (by simp [rowNumber])

/-- Settles O3: the row of an instruction accepts its word and makes the instruction of it, and no
earlier row takes the word. -/
theorem decodeOfEncode : Obligations.DecodeOfEncode :=
  fun _ rest h => congrArg (fun j => Except.ok (j, rest)) (decodeWord_encode h)

/-- What a row makes of a word it accepts is encoded as that word: a digit the pattern fixes is in the
encoding, and the instruction carries the others, ignored ones included (R84, R94). -/
theorem encode_make {a x y n : Nib} : ∀ r ∈ opcodeRows,
    r.pat.accepts ⟨a, x, y, n, joinNibs y n, join3 x y n⟩ = true →
      encode (r.make ⟨a, x, y, n, joinNibs y n, join3 x y n⟩) = formXYN a x y n := by
  simp only [opcodeRows, rowsControl, rowsAlu, rowsDraw, rowsMisc, List.forall_mem_append,
    List.forall_mem_cons, accepts_fixed, accepts_patClass, accepts_patXY, accepts_patXF, encode,
    formA_join3, formXI_joinNibs]
  simp +contextual +decide [formXI_eq, formXYN_inj]

/-- Only `CALL` and the unrecognised pattern have terms that no word stands for (R89, R95). -/
theorem wf_of_rowNumber {i : Instr} (h3 : rowNumber i ≠ 3) (h35 : rowNumber i ≠ 35) :
    i.wf = true := by
  cases i with
  | call nnn => exact absurd rfl h3
  | unrecognised first x y n => exact absurd rfl h35
  | _ => rfl

theorem wf_decodeBytes (b0 b1 : Byte) : (decodeBytes b0 b1).wf = true := by
  obtain ⟨r, hr, ha, hd⟩ | ⟨-, hn, hd⟩ := dispatch_cases (decodeFields b0 b1)
  · rw [decodeBytes, hd]
    by_cases h2 : firstRow (decodeFields b0 b1) = 2
    · rw [h2] at hr
      cases hr
      refine (wf_call_iff ((accepts_patClass _ _).1 ha)).2 fun r hr => ?_
      rw [← h2] at hr
      exact List.false_of_mem_take_findIdx (p := fun r : Row => r.pat.accepts _) hr
    · have := rowNumber_make hr (decodeFields b0 b1)
      have := lt_of_getElem?_opcodeRows hr
      exact wf_of_rowNumber (by omega) (by omega)
  · rw [decodeBytes, hd]
    exact (unrecognisedNibs_iff _).2 hn

theorem encode_decodeBytes (b0 b1 : Byte) : encode (decodeBytes b0 b1) = wordOf b0 b1 := by
  rw [decodeBytes, ← formXYN_nibs]
  obtain ⟨r, hr, ha, hd⟩ | ⟨-, -, hd⟩ := dispatch_cases (decodeFields b0 b1)
  · rw [hd]
    exact encode_make r (List.mem_of_getElem? hr) ha
  · rw [hd]
    rfl

/-- Settles O4: a row's instruction carries every open digit of the word, and the unrecognised
pattern carries all four. -/
theorem encodeOfDecode : Obligations.EncodeOfDecode := by
  refine fun b0 b1 => ⟨wf_decodeBytes b0 b1, ?_⟩
  rw [encodeBytes, encode_decodeBytes, hiByte_wordOf, loByte_wordOf]

/-! ## The decoder's fields, sample words and ignored fields (R82, R83, R94, R96) -/

/-- Settles O2: the fields as numbers, and `nn` is the second byte. -/
theorem decoderFieldsOfTwoBytes : Obligations.DecoderFieldsOfTwoBytes := by
  intro b0 b1
  simp only [decodeFields, joinNibs_hiNib_loNib, toNat_hiNib, toNat_loNib, toNat_join3,
    toNat_wordOf, true_and]
  omega

/-- Settles O1: the eleven words are dispatched. -/
theorem sampleWordsDecode : Obligations.SampleWordsDecode := by
  unfold Obligations.SampleWordsDecode
  decide

/-- Settles O8: no meaning of these six reads the field. -/
theorem ignoredFieldsHaveNoEffect : Obligations.IgnoredFieldsHaveNoEffect :=
  fun _ _ _ _ => ⟨rfl, rfl, rfl, rfl, rfl, rfl⟩

end Sys2Proof

namespace Sys2Proof.Machine

/-! ## The frame rule of each operation

`P` is the set of pieces a whole instruction may touch, so frames of several operations compose by
`OnlyTouches.trans` without being widened first. -/

theorem Part.same_trans {s t u : State} {p : Part} (h : p.same s t) (h' : p.same t u) :
    p.same s u := by
  cases p with
  | randomSource | pumpInput => exact ⟨h'.1.trans h.1, h'.2.trans h.2⟩
  | _ => exact Eq.trans h' h

theorem OnlyTouches.trans {s t u : State} {P : Part → Prop} (h : OnlyTouches s t P)
    (h' : OnlyTouches t u P) : OnlyTouches s u P :=
  fun p hp => Part.same_trans (h p hp) (h' p hp)

theorem onlyTouches_setPc {P : Part → Prop} (s : State) (a : Addr) (hpc : P .pc) :
    OnlyTouches s (s.setPc a) P := by
  intro p hp
  cases p with
  | pc => exact absurd hpc hp
  | randomSource | pumpInput => exact ⟨rfl, rfl⟩
  | _ => rfl

theorem onlyTouches_logEvent {P : Part → Prop} (s : State) (e : LogEvent) (hlog : P .log) :
    OnlyTouches s (s.logEvent e) P := by
  intro p hp
  cases p with
  | log => exact absurd hlog hp
  | randomSource | pumpInput => exact ⟨rfl, rfl⟩
  | _ => rfl

theorem onlyTouches_pump {P : Part → Prop} (s : State) (hstatus : P .status) (hshown : P .shown)
    (hinput : P .pumpInput) : OnlyTouches s s.pump P := by
  intro p hp
  cases p with
  | status => exact absurd hstatus hp
  | shown => exact absurd hshown hp
  | pumpInput => exact absurd hinput hp
  | randomSource => exact ⟨rfl, rfl⟩
  | _ => rfl

/-! ## The step cycle (R100 to R106) -/

theorem step_of_stopped {s : State} (h : s.status = .stopped) :
    step s = .fault .machineStopped := by
  rw [step, h]

theorem step_of_faulted {s : State} {c : Cause} (h : s.status = .faulted c) :
    step s = .fault (.machineFaulted c) := by
  rw [step, h]

/-- A running machine that can fetch executes the two bytes at `pc` and ends the step (R100). -/
theorem step_of_exec {s t : State} (hr : s.status = .running) (hp : s.pc.toNat + 1 ≤ 4095)
    (h : exec (decodeBytes (s.readByte s.pc.toNat) (s.readByte (s.pc.toNat + 1))) s = .next t) :
    step s = .next t.endStep := by
  rw [step_inRange hr (Nat.le_of_succ_le_succ hp), stepFetched_of_next h]

/-- Settles O10. -/
theorem stepCycle : Obligations.StepCycle := by
  refine fun s => ⟨fun hr hp => step_outOfRange hr (Nat.lt_of_succ_lt_succ hp),
    fun t hr hp h => ⟨fun ht => ?_, fun c ht => ?_⟩, step_of_stopped, fun _ => step_of_faulted⟩
  · rw [step_of_exec hr hp h, endStep_of_running ht]
  · rw [step_of_exec hr hp h, endStep_of_faulted ht]

theorem nextOpen_of_cons {s : State} {b : Bool} {rest : List Bool} (h : s.pumpQueue = b :: rest) :
    s.nextOpen = b := by
  rw [State.nextOpen, h]

theorem nextOpen_of_nil {s : State} (h : s.pumpQueue = []) :
    s.nextOpen = Config.sinkOpen s.pumpCount := by
  rw [State.nextOpen, h]

/-- Settles O11: a completed handler leaves the machine running, so the step ends with the pump. -/
theorem pumpEndsEveryCompletedStep : Obligations.PumpEndsEveryCompletedStep := by
  intro s t hr hp h ht
  have hstep : step s = .next t.pump := by rw [step_of_exec hr hp h, endStep_of_running ht]
  refine ⟨t.pump, hstep, rfl, rfl, fun b rest hq => ⟨?_, ?_⟩, fun hq => ⟨?_, ?_⟩,
    onlyTouches_pump t (.inl rfl) (.inr (.inl rfl)) (.inr (.inr rfl))⟩
  · rw [pump_pumpQueue, hq, List.tail_cons]
  · rw [pump_status, nextOpen_of_cons hq]
  · rw [pump_pumpQueue, hq, List.tail_nil]
  · rw [pump_status, nextOpen_of_nil hq]

/-- Settles O9: decoding two bytes always succeeds, and with no byte left over. -/
theorem stepExecutesDecodedInstruction : Obligations.StepExecutesDecodedInstruction := by
  intro s i hr hp hd
  cases hd
  obtain ⟨t, ht, -⟩ := exec_effect
    (decodeBytes (s.readByte s.pc.toNat) (s.readByte (s.pc.toNat + 1))) s
  rw [step_of_exec hr hp ht, ht]

/-! ## The word `withFetchWord` places -/

theorem withFetchWord_status (s : State) (nbits w : Nat) :
    (s.withFetchWord nbits w).status = .running := rfl

/-- A `pc` that cannot be fetched from was replaced by the reset value, which can. -/
theorem withFetchWord_pc_le (s : State) (nbits w : Nat) :
    (s.withFetchWord nbits w).pc.toNat + 1 ≤ 4095 := by
  change (if blockInRange s.pc.toNat 2 then s.pc else Config.pcReset).toNat + 1 ≤ 4095
  split
  · next h => rw [blockInRange_iff] at h; omega
  · decide

theorem withFetchWord_memory (s : State) (w : Word16) :
    (s.withFetchWord 16 w.toNat).memory =
      s.memory.store (s.withFetchWord 16 w.toNat).pc.toNat [hiByte w, loByte w] := by
  have hw : BitVec.ofNat 16 (w.toNat % 2 ^ 16) = w := by
    rw [Nat.mod_eq_of_lt w.isLt, BitVec.ofNat_toNat, BitVec.setWidth_eq]
  simp only [State.withFetchWord, hw]

/-- The word's bytes stand at `pc` and `pc + 1`, high-order byte first (R56). -/
theorem readByte_withFetchWord (s : State) (w : Word16) :
    (s.withFetchWord 16 w.toNat).readByte (s.withFetchWord 16 w.toNat).pc.toNat = hiByte w ∧
    (s.withFetchWord 16 w.toNat).readByte ((s.withFetchWord 16 w.toNat).pc.toNat + 1) =
      loByte w := by
  simp [State.readByte, withFetchWord_memory, Memory.read_store]

/-- Settles O22: the placed word's bytes are the two at a `pc` that can be fetched from. -/
theorem placedWordIsTheNextRun : Obligations.PlacedWordIsTheNextRun := by
  intro s w
  obtain ⟨t, ht, -⟩ := exec_effect (decodeWord w) (s.withFetchWord 16 w.toNat)
  obtain ⟨h0, h1⟩ := readByte_withFetchWord s w
  rw [step_of_exec (withFetchWord_status s _ _) (withFetchWord_pc_le s _ _)
    (by rw [h0, h1]; exact ht), ht]

/-! ## The unrecognised pattern (R104) -/

/-- Settles O30. -/
theorem unrecognisedLogsAndAdvances : Obligations.UnrecognisedLogsAndAdvances :=
  fun first x y n s => ⟨(s.logEvent ⟨first, x, y, n⟩).advance, rfl, rfl, rfl,
    (onlyTouches_logEvent s _ (.inr rfl)).trans (onlyTouches_setPc _ _ (.inl rfl))⟩

end Sys2Proof.Machine

namespace Sys2Proof.Machine

/-! ## Control flow (R120 to R127) -/

/-- Also the frame of `push`, which unfolds to such an update. -/
theorem onlyTouches_stack {P : Part → Prop} (s : State) (st : List Addr) (hstack : P .stack) :
    OnlyTouches s { s with stack := st } P := by
  intro p hp
  cases p with
  | stack => exact absurd hstack hp
  | randomSource | pumpInput => exact ⟨rfl, rfl⟩
  | _ => rfl

theorem exec_ret_of_append {s : State} {rest : List Addr} {a : Addr} (h : s.stack = rest ++ [a]) :
    exec .ret s = .next (({ s with stack := rest } : State).setPc a) := by
  change execRet s = _
  rw [execRet, pop_of_append h]

theorem exec_ret_of_empty {s : State} (h : s.stack = []) :
    exec .ret s = .next (s.faultedWith .emptyStackReturn 0) := by
  change execRet s = _
  rw [execRet, pop_of_empty h, raise_eq_faultedWith]

theorem exec_call_of_notFull {s : State} (nnn : Addr12) (h : s.stackDepth ≠ some s.stack.length) :
    exec (.call nnn) s = .next ((s.push (s.pc + 2)).setPc (zextAddr nnn)) := by
  change execCall nnn s = _
  rw [execCall, if_neg (mt (stackFull_iff s).1 h)]

theorem exec_call_of_full {s : State} (nnn : Addr12) (h : s.stackDepth = some s.stack.length) :
    exec (.call nnn) s = .next (s.faultedWith .stackOverflow 0) := by
  change execCall nnn s = _
  rw [execCall, if_pos ((stackFull_iff s).2 h), raise_eq_faultedWith]

/-- A skip whose test decides `p` (R24). -/
theorem skipIf_eq {p : Prop} [Decidable p] {c : Bool} (s : State) (h : c = true ↔ p) :
    s.skipIf c = { s with pc := if p then s.pc + 4 else s.pc + 2 } := by
  by_cases hp : p
  · rw [h.2 hp, if_pos hp]; rfl
  · rw [Bool.eq_false_of_not_eq_true (mt h.1 hp), if_neg hp]; rfl

/-- Settles O23. -/
theorem retPopsOrFaults : Obligations.RetPopsOrFaults :=
  fun s => ⟨fun rest _ h => ⟨_, exec_ret_of_append h, rfl, rfl,
    (onlyTouches_stack s rest (.inr rfl)).trans (onlyTouches_setPc _ _ (.inl rfl))⟩,
    exec_ret_of_empty⟩

/-- Settles O24. -/
theorem callPushesOrFaults : Obligations.CallPushesOrFaults :=
  fun nnn s => ⟨fun h => ⟨_, exec_call_of_notFull nnn h, toNat_zextAddr nnn, rfl,
    (onlyTouches_stack s _ (.inr rfl)).trans (onlyTouches_setPc _ _ (.inl rfl))⟩,
    exec_call_of_full nnn⟩

/-- Settles O25: the stack after the call ends in `pc + 2`, so the return takes its first case. -/
theorem callThenRetRestores : Obligations.CallThenRetRestores :=
  fun nnn _ h => ⟨_, exec_call_of_notFull nnn h, exec_ret_of_append rfl⟩

/-- Settles O26. -/
theorem jpSetsPc : Obligations.JpSetsPc :=
  fun nnn s => ⟨s.setPc (zextAddr nnn), rfl, toNat_zextAddr nnn, onlyTouches_setPc s _ rfl⟩

/-- Settles O27: from a `pc` of at most 4094 the sum is at most 4094 + 4095 + 255, so it does not
wrap. -/
theorem jprelAddsToItsOwnAddress : Obligations.JprelAddsToItsOwnAddress := by
  intro nnn s
  have hsum : (s.pc + zextAddr nnn + zextByte (s.readReg 0)).toNat =
      (s.pc.toNat + nnn.toNat + (s.readReg 0).toNat) % 65536 := by
    rw [add_zext_eq_ofNat, BitVec.toNat_ofNat]
  refine ⟨s.setPc _, rfl, hsum, fun hpc => hsum.trans (Nat.mod_eq_of_lt ?_),
    onlyTouches_setPc s _ rfl⟩
  have hn : nnn.toNat < 4096 := nnn.isLt
  have hv : (s.readReg 0).toNat < 256 := (s.readReg 0).isLt
  omega

/-- Settles O28: each skip's test decides its condition. -/
theorem skipsAddFourOrTwo : Obligations.SkipsAddFourOrTwo :=
  fun _ _ _ s => ⟨congrArg Host.Outcome.next (skipIf_eq s beq_iff_eq),
    congrArg Host.Outcome.next (skipIf_eq s bne_iff_ne),
    congrArg Host.Outcome.next (skipIf_eq s beq_iff_eq),
    congrArg Host.Outcome.next (skipIf_eq s bne_iff_ne)⟩

end Sys2Proof.Machine

namespace Sys2Proof.Machine

/-! ## Arithmetic, logic, shifts and random (R140 to R153) -/

theorem onlyTouches_writeReg {P : Part → Prop} (s : State) {x : RegIx} (v : Byte)
    (hreg : P (.reg x)) : OnlyTouches s (s.writeReg x v) P := by
  intro p hp
  cases p with
  | reg r =>
    have hne : r ≠ x := fun e => hp (e ▸ hreg)
    exact (readReg_writeReg s x r v).trans (if_neg hne)
  | randomSource | pumpInput => exact ⟨rfl, rfl⟩
  | _ => rfl

theorem onlyTouches_writeFlag {P : Part → Prop} (s : State) (c : Bool)
    (hflag : P (.reg s.flagIx)) : OnlyTouches s (s.writeFlag c) P :=
  onlyTouches_writeReg s _ hflag

theorem onlyTouches_afterDraw {P : Part → Prop} (s : State) (hrandom : P .randomSource) :
    OnlyTouches s s.afterDraw P := by
  intro p hp
  cases p with
  | randomSource => exact absurd hrandom hp
  | pumpInput => exact ⟨rfl, rfl⟩
  | _ => rfl

theorem onlyTouches_advance {P : Part → Prop} (s : State) (hpc : P .pc) :
    OnlyTouches s s.advance P :=
  onlyTouches_setPc s _ hpc

/-- The frame of every instruction whose one result goes to `V[x]`. -/
theorem onlyTouches_writeReg_advance (s : State) (x : RegIx) (v : Byte) :
    OnlyTouches s (s.writeReg x v).advance (fun p => p = .pc ∨ p = .reg x) :=
  (onlyTouches_writeReg s v (.inr rfl)).trans (onlyTouches_advance _ (.inl rfl))

/-- The register written last holds its value when the instruction ends. -/
theorem readReg_writeReg_advance (s : State) (x : RegIx) (v : Byte) :
    (s.writeReg x v).advance.readReg x = v := by
  rw [advance_readReg, readReg_writeReg, if_pos rfl]

/-- Settles O32. -/
theorem ldiAndMovWriteOneRegister : Obligations.LdiAndMovWriteOneRegister :=
  fun x _ _ s =>
    ⟨⟨_, rfl, readReg_writeReg_advance s x _, rfl, onlyTouches_writeReg_advance s x _⟩,
      ⟨_, rfl, readReg_writeReg_advance s x _, rfl, onlyTouches_writeReg_advance s x _⟩⟩

/-- Settles O33. -/
theorem addiWrapsWithoutFlag : Obligations.AddiWrapsWithoutFlag := by
  intro x nn s
  refine ⟨_, rfl, ?_, rfl, onlyTouches_writeReg_advance s x _⟩
  rw [readReg_writeReg_advance, BitVec.toNat_add]

/-- Settles O34. -/
theorem logicActsBitByBit : Obligations.LogicActsBitByBit := by
  intro x y s
  refine ⟨⟨_, rfl, fun k => ?_, rfl, onlyTouches_writeReg_advance s x _⟩,
    ⟨_, rfl, fun k => ?_, rfl, onlyTouches_writeReg_advance s x _⟩,
    ⟨_, rfl, fun k => ?_, rfl, onlyTouches_writeReg_advance s x _⟩⟩
  · rw [readReg_writeReg_advance, BitVec.getLsbD_or]
  · rw [readReg_writeReg_advance, BitVec.getLsbD_and]
  · rw [readReg_writeReg_advance, BitVec.getLsbD_xor]

/-- Settles O38. -/
theorem shiftsByOneWithoutFlag : Obligations.ShiftsByOneWithoutFlag := by
  intro x y s
  refine ⟨⟨_, rfl, ?_, rfl, onlyTouches_writeReg_advance s x _⟩,
    ⟨_, rfl, ?_, rfl, onlyTouches_writeReg_advance s x _⟩⟩
  · rw [readReg_writeReg_advance, BitVec.toNat_ushiftRight, Nat.shiftRight_one]
  · rw [readReg_writeReg_advance, BitVec.toNat_shiftLeft, Nat.shiftLeft_eq, pow_one, mul_comm]

/-! ### The two writes of `ADD`, `SUB` and `SUBR` (R140, R147) -/

theorem bool2byte_carryOut (a b : Byte) :
    bool2byte (carryOut a b) = if a.toNat + b.toNat > 255 then 1 else 0 := by
  simp only [bool2byte, carryOut, decide_eq_true_eq]

theorem bool2byte_noBorrow (a b : Byte) :
    bool2byte (noBorrow a b) = if a ≥ b then 1 else 0 := by
  simp only [bool2byte, noBorrow, decide_eq_true_eq, ge_iff_le, BitVec.le_def]

/-- The difference as R149 writes it: the subtrahend is taken from the minuend plus 256. -/
theorem toNat_byte_sub (a b : Byte) : (a - b).toNat = (a.toNat + 256 - b.toNat) % 256 := by
  have hb : b.toNat < 256 := b.isLt
  rw [BitVec.toNat_sub]
  omega

/-- Settles O35: the flag, written last, is read back in every case, and the sum where the flag
did not overwrite it. -/
theorem addSetsCarryLast : Obligations.AddSetsCarryLast := by
  intro x y s
  refine ⟨_, rfl, fun hx => ?_, ?_, rfl,
    ((onlyTouches_writeReg s _ (.inr (.inl rfl))).trans
      (onlyTouches_writeFlag _ _ (.inr (.inr rfl)))).trans (onlyTouches_advance _ (.inl rfl))⟩
  · rw [advance_readReg, readReg_writeFlag, writeReg_flagIx, if_neg hx, readReg_writeReg,
      if_pos rfl, BitVec.toNat_add]
  · rw [advance_readReg, readReg_writeFlag, writeReg_flagIx, if_pos rfl, bool2byte_carryOut]

/-- Settles O36: the difference, written last, is read back in every case, and the flag where the
difference did not overwrite it. -/
theorem subSetsNoBorrowFirst : Obligations.SubSetsNoBorrowFirst := by
  intro x y s
  refine ⟨_, rfl, ?_, fun hx => ?_, rfl,
    ((onlyTouches_writeFlag s _ (.inr (.inr rfl))).trans
      (onlyTouches_writeReg _ _ (.inr (.inl rfl)))).trans (onlyTouches_advance _ (.inl rfl))⟩
  · rw [readReg_writeReg_advance, toNat_byte_sub]
  · rw [advance_readReg, readReg_writeReg, if_neg hx.symm, readReg_writeFlag, if_pos rfl,
      bool2byte_noBorrow]

/-- The handlers differ in the names of their fields only (R150). -/
theorem exec_subr_eq_sub (x y : RegIx) (s : State) : exec (.subr x y) s = exec (.sub y x) s := rfl

/-- Settles O37, from `SUB` with the fields swapped. -/
theorem subrWritesVy : Obligations.SubrWritesVy := by
  intro x y s
  refine ⟨?_, exec_subr_eq_sub x y s⟩
  rw [exec_subr_eq_sub]
  exact subSetsNoBorrowFirst y x s

/-! ### The random byte (R42, R153) -/

theorem nextRandom_of_cons {s : State} {r : Byte} {rest : List Byte}
    (h : s.randomQueue = r :: rest) : s.nextRandom = r := by
  rw [State.nextRandom, h]

theorem nextRandom_of_nil {s : State} (h : s.randomQueue = []) :
    s.nextRandom = Config.randomByte s.randomCount := by
  rw [State.nextRandom, h]

theorem and_mask_and_not_mask (r nn : Byte) : r &&& nn &&& ~~~nn = 0 := by
  rw [BitVec.and_assoc, BitVec.and_not_self]
  exact BitVec.and_zero

/-- A byte with no bit outside the mask is the same under the mask. -/
theorem and_mask_of_and_not_mask {v nn : Byte} (h : v &&& ~~~nn = 0) : v &&& nn = v := by
  calc v &&& nn = v &&& nn ||| v &&& ~~~nn := by rw [h]; exact BitVec.or_zero.symm
    _ = v &&& (nn ||| ~~~nn) := BitVec.and_or_distrib_left.symm
    _ = v := by rw [BitVec.or_not_self, BitVec.and_allOnes]

/-- Settles O39: the byte drawn is `nextRandom`, and a queued `v` within the mask comes out as
itself. -/
theorem rndIsAnyMaskedByte : Obligations.RndIsAnyMaskedByte := by
  intro x nn s
  have hread (u : State) : (u.afterDraw.writeReg x (u.nextRandom &&& nn)).advance.readReg x =
      u.nextRandom &&& nn := readReg_writeReg_advance u.afterDraw x _
  refine ⟨⟨_, rfl, fun r rest hq => ⟨?_, congrArg List.tail hq⟩,
    fun hq => ⟨?_, congrArg List.tail hq⟩, rfl, ?_, rfl,
    ((onlyTouches_afterDraw s (.inr (.inr rfl))).trans
      (onlyTouches_writeReg _ _ (.inr (.inl rfl)))).trans (onlyTouches_advance _ (.inl rfl))⟩,
    fun v hv => ⟨[v], _, rfl, ?_⟩⟩
  · rw [hread, nextRandom_of_cons hq]
  · rw [hread, nextRandom_of_nil hq]
  · rw [hread, and_mask_and_not_mask]
  · rw [hread, nextRandom_of_cons rfl, and_mask_of_and_not_mask hv]

end Sys2Proof.Machine

namespace Sys2Proof.Machine

/-! ## Index register and memory (R160 to R167) -/

theorem onlyTouches_setI {P : Part → Prop} (s : State) (a : Addr) (hindex : P .index) :
    OnlyTouches s (s.setI a) P := by
  intro p hp
  cases p with
  | index => exact absurd hindex hp
  | randomSource | pumpInput => exact ⟨rfl, rfl⟩
  | _ => rfl

/-- A block store touches the bytes of its block only (R57). -/
theorem onlyTouches_storeBytes {P : Part → Prop} (s : State) (base : Nat) (vs : List Byte)
    (hbyte : ∀ k, k < vs.length → P (.byte (base + k))) :
    OnlyTouches s (s.storeBytes base vs) P := by
  intro p hp
  cases p with
  | byte a =>
    refine readByte_storeBytes_of_outside ?_
    by_contra hin
    have hk : a - base < vs.length := by omega
    have ha : base + (a - base) = a := by omega
    exact hp (ha ▸ hbyte _ hk)
  | randomSource | pumpInput => exact ⟨rfl, rfl⟩
  | _ => rfl

theorem onlyTouches_writeRegs {P : Part → Prop} (s : State) (k : Nat) (vs : List Byte)
    (hreg : ∀ r, P (.reg r)) : OnlyTouches s (s.writeRegs k vs) P := by
  rw [writeRegs_eq]
  intro p hp
  cases p with
  | reg r => exact absurd (hreg r) hp
  | randomSource | pumpInput => exact ⟨rfl, rfl⟩
  | _ => rfl

theorem writeRegs_pc (s : State) (k : Nat) (vs : List Byte) : (s.writeRegs k vs).pc = s.pc := by
  rw [writeRegs_eq]

/-- The frame of the three instructions that write `I` (R167). -/
theorem onlyTouches_setI_advance (s : State) (a : Addr) :
    OnlyTouches s (s.setI a).advance (fun p => p = .pc ∨ p = .index) :=
  (onlyTouches_setI s a (.inr rfl)).trans (onlyTouches_advance _ (.inl rfl))

/-- The frame of a store of the bytes at `I` to `I + n` (R163, R165). -/
theorem onlyTouches_storeBytes_advance (s : State) {vs : List Byte} {n : Nat}
    (hn : vs.length = n + 1) :
    OnlyTouches s (s.storeBytes s.base vs).advance
      (fun p => p = .pc ∨ ∃ k, k ≤ n ∧ p = .byte (s.I.toNat + k)) :=
  (onlyTouches_storeBytes s s.base vs fun k hk =>
    .inr ⟨k, Nat.le_of_lt_succ (hk.trans_eq hn), rfl⟩).trans (onlyTouches_advance _ (.inl rfl))

/-- `LDM` in range loads the 16 registers and goes on (R166). -/
theorem exec_ldm_inRange {s : State} (x : RegIx) (h : s.I.toNat + 15 ≤ 4095) :
    exec (.ldm x) s = .next (s.writeRegs 0 (s.loadBytes s.base 16)).advance :=
  congrArg Host.Outcome.next (touching_inRange (.inr (Nat.succ_le_succ h)))

/-- A guarded access at `I` whose last byte, at `I + n`, does not exist faults whatever its body
(R70, R203). -/
theorem touching_base_outOfRange {s : State} {n : Nat} (k : State → State)
    (h : s.I.toNat + n > 4095) :
    s.touching s.base (n + 1) k = s.faultedWith .addressOutOfRange (max s.I.toNat 4096) :=
  (touching_outOfRange n.succ_pos (Nat.succ_lt_succ h)).trans (raise_eq_faultedWith s _ _)

/-- Settles O40. -/
theorem setiAndFontSetIndex : Obligations.SetiAndFontSetIndex :=
  fun nnn x s =>
    ⟨⟨_, rfl, toNat_zextAddr nnn, rfl, onlyTouches_setI_advance s _⟩,
      ⟨_, rfl, toNat_zextByte (s.readReg x), rfl, onlyTouches_setI_advance s _⟩⟩

/-- Settles O41: the 16-bit sum is the sum modulo 65536. -/
theorem iaddWrapsAt65536 : Obligations.IaddWrapsAt65536 := by
  intro x s
  have hsum : (s.I + zextByte (s.readReg x)).toNat =
      (s.I.toNat + (s.readReg x).toNat) % 65536 := by
    rw [BitVec.toNat_add, toNat_zextByte]
  exact ⟨_, rfl, hsum, rfl, onlyTouches_setI_advance s _⟩

/-- Settles O42: the three bytes read back are the digits stored. -/
theorem bcdStoresDigitsOrFaults : Obligations.BcdStoresDigitsOrFaults := by
  intro x s
  have digit_read {k digit : Nat}
      (h : k = 0 ∧ digit = (s.readReg x).toNat / 100 ∨
        k = 1 ∧ digit = (s.readReg x).toNat / 10 % 10 ∨ k = 2 ∧ digit = (s.readReg x).toNat % 10) :
      ((s.storeBytes s.base (decimalDigits (s.readReg x))).readByte (s.base + k)).toNat =
        digit := by
    obtain ⟨v, hv, rfl⟩ := getElem?_decimalDigits h
    rw [readByte_storeBytes_of_getElem? hv]
  exact ⟨fun h => ⟨_, exec_bcd_inRange h, digit_read (.inl ⟨rfl, rfl⟩),
      digit_read (.inr (.inl ⟨rfl, rfl⟩)), digit_read (.inr (.inr ⟨rfl, rfl⟩)), rfl,
      onlyTouches_storeBytes_advance s (length_decimalDigits _)⟩,
    fun h => congrArg Host.Outcome.next (touching_base_outOfRange _ h)⟩

/-- Settles O43: byte `k` of the block stored is `V[k]`. -/
theorem stmStoresRegistersOrFaults : Obligations.StmStoresRegistersOrFaults := by
  intro x s
  refine ⟨fun h => ⟨_, exec_stm_inRange h, fun k hk => ?_, rfl,
      onlyTouches_storeBytes_advance s (length_regsUpTo s x)⟩,
    fun h => congrArg Host.Outcome.next (touching_base_outOfRange _ h)⟩
  have hv : (s.regsUpTo x)[k.toNat]? = some (s.readReg k) := by
    rw [getElem?_regsUpTo hk, BitVec.ofNat_toNat, BitVec.setWidth_eq]
  exact readByte_storeBytes_of_getElem? hv

/-- Settles O44. -/
theorem ldmLoadsAllRegistersOrFaults : Obligations.LdmLoadsAllRegistersOrFaults := by
  refine fun x s => ⟨fun h => ⟨_, exec_ldm_inRange x h, fun k => ?_, ?_, ?_⟩,
    fun h => congrArg Host.Outcome.next (touching_base_outOfRange _ h)⟩
  · rw [advance_readReg, readReg_writeRegs_loadBytes]; rfl
  · rw [advance_pc, writeRegs_pc]
  · exact (onlyTouches_writeRegs s 0 _ fun r => .inr ⟨r, rfl⟩).trans
      (onlyTouches_advance _ (.inl rfl))

/-- Settles O45, from what `STM` stores and what `LDM` loads: the two blocks are the same. -/
theorem ldmAfterStmRestoresRegisters : Obligations.LdmAfterStmRestoresRegisters := by
  intro x s t u hI hstm hu hmem
  obtain ⟨t', ht', hstored, -, -⟩ := (stmStoresRegistersOrFaults 15 s).1 hI
  cases ht'.symm.trans hstm
  obtain ⟨w, hw, hloaded, -, -⟩ := (ldmLoadsAllRegistersOrFaults x u).1 (hu ▸ hI)
  refine ⟨w, hw, fun r => ?_⟩
  calc w.readReg r = t.readByte (s.I.toNat + r.toNat) := by rw [hloaded, hu, hmem]
    _ = s.readReg r := hstored r (Nat.le_of_lt_succ r.isLt)

end Sys2Proof.Machine

namespace Sys2Proof.Machine

/-! ## The draw controller (R171 to R178) -/

theorem onlyTouches_clearPixels {P : Part → Prop} (s : State) (hpixel : ∀ c r, P (.pixel c r)) :
    OnlyTouches s s.clearPixels P := by
  intro p hp
  cases p with
  | pixel c r => exact absurd (hpixel c r) hp
  | randomSource | pumpInput => exact ⟨rfl, rfl⟩
  | _ => rfl

/-- Settles O48. -/
theorem clsClearsEveryPixel : Obligations.ClsClearsEveryPixel :=
  fun s => ⟨s.clearPixels.advance, rfl, getPixel_clearPixels s, rfl,
    (onlyTouches_clearPixels s fun c r => .inr ⟨c, r, rfl⟩).trans
      (onlyTouches_advance _ (.inl rfl))⟩

/-- The sprite of the `n` bytes from `I` on, drawn with its top left corner at (`cx`, `cy`): what
`DRW` in range does before `pc` moves (R172). -/
def State.drawSprite (s : State) (cx cy : Byte) (n : Nib) : State :=
  s.drawRows cx cy 0 (s.loadBytes s.base n.toNat)

theorem exec_drw (x y : RegIx) (n : Nib) (s : State) :
    exec (.drw x y n) s = .next (s.touching s.base n.toNat fun t =>
      (t.drawSprite (s.readReg x) (s.readReg y) n).advance) :=
  rfl

theorem exec_drw_inRange {s : State} (x y : RegIx) {n : Nib}
    (h : n.toNat = 0 ∨ s.I.toNat + n.toNat ≤ 4096) :
    exec (.drw x y n) s = .next (s.drawSprite (s.readReg x) (s.readReg y) n).advance :=
  congrArg Host.Outcome.next (touching_inRange h)

/-- Settles O50: a sprite of no row is in range wherever `I` points, and draws nothing. -/
theorem drwOfNoRowsOnlyAdvances : Obligations.DrwOfNoRowsOnlyAdvances :=
  fun x y _ => exec_drw_inRange x y (.inl rfl)

theorem drawSprite_pc (s : State) (cx cy : Byte) (n : Nib) : (s.drawSprite cx cy n).pc = s.pc := by
  rw [State.drawSprite, drawRows_eq]

/-- The sprite has at most 15 rows, so no pixel is drawn twice (R175). -/
theorem getPixel_drawSprite (s : State) (cx cy : Byte) (n : Nib) (i : Fin 64) (j : Fin 32) :
    (s.drawSprite cx cy n).getPixel i j =
      (s.getPixel i j ^^ spriteAt cx cy 0 (s.loadBytes s.base n.toNat) i j) := by
  have hn : n.toNat < 16 := n.isLt
  exact getPixel_drawRows s cx cy 0 _ (by rw [length_loadBytes]; omega) i j

/-- Row `row`, column `col` of the sprite falls on the pixel its wrapped coordinates name (R173). -/
theorem spriteAt_wrap (s : State) (cx cy : Byte) (base : Nat) {n : Nib} {row col : Nat}
    (hrow : row < n.toNat) (hcol : col < 8) :
    spriteAt cx cy 0 (s.loadBytes base n.toNat) (wrapCol cx col) (wrapRow cy row) =
      spriteBit (s.readByte (base + row)) col := by
  have hn : n.toNat < 16 := n.isLt
  have hc : colAt cx (wrapCol cx col) = col := (wrapCol_eq_iff (by omega) _).1 rfl
  have hr : rowAt cy (wrapRow cy row) = row := (wrapRow_eq_iff (by omega) _).1 rfl
  rw [spriteAt_loadBytes, hc, hr, decide_eq_true hcol, decide_eq_true hrow, Bool.true_and,
    Bool.true_and]

/-- Column 7 is bit 0 of the sprite byte (R174). -/
theorem bool2byte_collision (old : Bool) (b : Byte) :
    bool2byte (collision old (spriteBit b 7)) =
      if old = true ∧ b.toNat % 2 = 1 then 1 else 0 := by
  have hbit : spriteBit b 7 = decide (b.toNat % 2 = 1) := Nat.testBit_zero b.toNat
  simp only [bool2byte, collision, hbit, Bool.and_eq_true, decide_eq_true_eq]

theorem flag_drawSprite (s : State) (cx cy : Byte) {n : Nib} {k : Nat} (hn : n.toNat = k + 1) :
    (s.drawSprite cx cy n).readReg s.flagIx =
      if s.getPixel (wrapCol cx 7) (wrapRow cy k) = true ∧
        (s.readByte (s.base + k)).toNat % 2 = 1 then 1 else 0 := by
  have hlt : n.toNat < 16 := n.isLt
  rw [State.drawSprite, hn, loadBytes_succ,
    flag_drawRows _ _ _ _ _ _ (by rw [length_loadBytes]; omega), length_loadBytes, Nat.zero_add,
    bool2byte_collision]

/-- A pixel outside the sprite's rows and columns is xored with false. -/
theorem onlyTouches_drawSprite {P : Part → Prop} (s : State) (cx cy : Byte) (n : Nib)
    (hflag : P (.reg s.flagIx))
    (hpixel : ∀ row col, row < n.toNat → col < 8 → P (.pixel (wrapCol cx col) (wrapRow cy row))) :
    OnlyTouches s (s.drawSprite cx cy n) P := by
  intro p hp
  cases p with
  | reg r =>
    have hr : r ≠ s.flagIx := fun e => hp (e ▸ hflag)
    exact readReg_drawRows_of_ne s cx cy 0 _ hr
  | pixel i j =>
    have hout : ¬ (colAt cx i < 8 ∧ rowAt cy j < n.toNat) := by
      rintro ⟨hcol, hrow⟩
      have hi : i = wrapCol cx (colAt cx i) := (wrapCol_eq_iff (by omega) i).2 rfl
      have hj : j = wrapRow cy (rowAt cy j) :=
        (wrapRow_eq_iff (Nat.mod_lt _ (by decide)) j).2 rfl
      rw [hi, hj] at hp
      exact hp (hpixel _ _ hrow hcol)
    change (s.drawSprite cx cy n).getPixel i j = s.getPixel i j
    rw [getPixel_drawSprite, spriteAt_loadBytes, ← Bool.decide_and, decide_eq_false hout,
      Bool.false_and, Bool.xor_false]
  | randomSource | pumpInput => rw [State.drawSprite, drawRows_eq]; exact ⟨rfl, rfl⟩
  | _ => rw [State.drawSprite, drawRows_eq]; rfl

/-- Settles O49. With `n` = `k` + 1 the last row is `k`, and a pixel with the coordinates of the
statement is the wrapped pixel of its row and column. -/
theorem drwXorsSpriteOrFaults : Obligations.DrwXorsSpriteOrFaults := by
  intro x y n s hn
  obtain ⟨k, hk⟩ : ∃ k, n.toNat = k + 1 :=
    Nat.exists_eq_add_one_of_ne_zero fun e => hn (BitVec.eq_of_toNat_eq e)
  have hlast (a : Nat) : a + n.toNat - 1 = a + k := by rw [hk]; rfl
  rw [hlast]
  refine ⟨fun h => ⟨_, exec_drw_inRange x y (.inr ?_), fun row col c r hrow hcol hc hr => ?_,
    fun c r hc hr => ?_, ?_, ?_⟩, fun h => ?_⟩
  · omega
  · obtain rfl : c = wrapCol (s.readReg x) col := Fin.ext hc
    obtain rfl : r = wrapRow (s.readReg y) row := Fin.ext hr
    rw [advance_getPixel, getPixel_drawSprite, spriteAt_wrap _ _ _ _ hrow hcol]
    rfl
  · rw [hlast] at hr
    obtain rfl : c = wrapCol (s.readReg x) 7 := Fin.ext hc
    obtain rfl : r = wrapRow (s.readReg y) k := Fin.ext hr
    rw [advance_readReg, flag_drawSprite _ _ _ hk]
    rfl
  · rw [advance_pc, drawSprite_pc]
  · exact (onlyTouches_drawSprite s _ _ n (.inr (.inl rfl)) fun row col hrow hcol =>
      .inr (.inr ⟨row, col, _, _, hrow, hcol, rfl, rfl, rfl⟩)).trans
      (onlyTouches_advance _ (.inl rfl))
  · rw [exec_drw, hk, touching_base_outOfRange _ h]

/-- The pixels after a `DRW` that completes or faults: a fault draws no sprite. -/
theorem getPixel_of_exec_drw {x y : RegIx} {n : Nib} {s t : State}
    (h : exec (.drw x y n) s = .next t) (i : Fin 64) (j : Fin 32) :
    t.getPixel i j = (s.getPixel i j ^^ (blockInRange s.base n.toNat &&
      spriteAt (s.readReg x) (s.readReg y) 0 (s.loadBytes s.base n.toNat) i j)) := by
  obtain rfl := Host.Outcome.next.inj ((exec_drw x y n s).symm.trans h)
  unfold State.touching
  split
  · next hin => rw [advance_getPixel, getPixel_drawSprite, hin, Bool.true_and]
  · next hout =>
    rw [raise_getPixel, Bool.eq_false_of_not_eq_true hout, Bool.false_and, Bool.xor_false]

theorem loadBytes_congr {s t : State} (h : ∀ a, t.readByte a = s.readByte a) (base len : Nat) :
    t.loadBytes base len = s.loadBytes base len :=
  List.map_congr_left fun _ _ => h _

/-- Settles O51: both draws xor each pixel with the same bit. -/
theorem drawingTwiceRestoresPixels : Obligations.DrawingTwiceRestoresPixels := by
  intro x y n s t t' u hfirst hfb hx hy hI hmem hsecond c r
  have hbase : t'.base = s.base := congrArg BitVec.toNat hI
  rw [getPixel_of_exec_drw hsecond, hfb, getPixel_of_exec_drw hfirst, hbase, hx, hy,
    loadBytes_congr hmem, Bool.xor_assoc, Bool.xor_self, Bool.xor_false]

end Sys2Proof.Machine

namespace Sys2Proof.Machine

/-! ## Timers and key stubs (R180 to R186) -/

theorem onlyTouches_setDT {P : Part → Prop} (s : State) (v : Byte) (htimer : P .delayTimer) :
    OnlyTouches s (s.setDT v) P := by
  intro p hp
  cases p with
  | delayTimer => exact absurd htimer hp
  | randomSource | pumpInput => exact ⟨rfl, rfl⟩
  | _ => rfl

theorem onlyTouches_setST {P : Part → Prop} (s : State) (v : Byte) (htimer : P .soundTimer) :
    OnlyTouches s (s.setST v) P := by
  intro p hp
  cases p with
  | soundTimer => exact absurd htimer hp
  | randomSource | pumpInput => exact ⟨rfl, rfl⟩
  | _ => rfl

/-- Settles O52: each handler is one write followed by `advance`, whose value and frame are those of
the write. -/
theorem timersAreReadAndWritten : Obligations.TimersAreReadAndWritten := by
  refine fun x s => ⟨⟨(s.writeReg x s.DT).advance, rfl, readReg_writeReg_advance s x _, rfl,
      onlyTouches_writeReg_advance s x _⟩,
    ⟨(s.setDT (s.readReg x)).advance, rfl, ?_, rfl, ?_⟩,
    ⟨(s.setST (s.readReg x)).advance, rfl, ?_, rfl, ?_⟩⟩
  · rw [advance_DT, setDT_DT]
  · exact (onlyTouches_setDT s _ (.inr rfl)).trans (onlyTouches_advance _ (.inl rfl))
  · rw [advance_ST, setST_ST]
  · exact (onlyTouches_setST s _ (.inr rfl)).trans (onlyTouches_advance _ (.inl rfl))

/-- Settles O29: the three handlers are `advance`, which moves `pc` by 2. -/
theorem keyStubsOnlyAdvance : Obligations.KeyStubsOnlyAdvance :=
  fun _ _ => ⟨rfl, rfl, rfl⟩

end Sys2Proof.Machine

namespace Sys2Proof.Machine

/-! ## Faults (R200 to R210, R218, R219) -/

/-- A guarded access at `I` whose body keeps the status leaves the machine running, or some address
of the block does not exist and it faults (R203). -/
theorem running_or_outOfRange_of_touching {s : State} {len : Nat} {k : State → State}
    (hr : s.status = .running) (hk : (k s).status = s.status) :
    (s.touching s.base len k).status = .running ∨ (0 < len ∧ 4096 < s.I.toNat + len ∧
      s.touching s.base len k = s.faultedWith .addressOutOfRange (max s.I.toNat 4096)) := by
  obtain ⟨-, h⟩ | ⟨hlen, hout, h⟩ := touching_cases s s.base len k
  · rw [h]; exact .inl (hk.trans hr)
  · exact .inr ⟨hlen, hout, h.trans (raise_eq_faultedWith s _ _)⟩

theorem drawSprite_status (s : State) (cx cy : Byte) (n : Nib) :
    (s.drawSprite cx cy n).status = s.status := by
  rw [State.drawSprite, drawRows_eq]

theorem writeRegs_status (s : State) (k : Nat) (vs : List Byte) :
    (s.writeRegs k vs).status = s.status := by
  rw [writeRegs_eq]

/-- Settles O12: both outcomes of a running machine's fetch lead to a next state. -/
theorem runningMachineAlwaysSteps : Obligations.RunningMachineAlwaysSteps := by
  refine fun s => ⟨fun hr => ?_, fun hn t h => hn (step_cases h).1⟩
  rcases Nat.lt_or_ge 4094 s.pc.toNat with hp | hp
  · exact ⟨_, step_outOfRange hr hp⟩
  · obtain ⟨t, ht, -⟩ :=
      exec_effect (decodeBytes (s.readByte s.pc.toNat) (s.readByte (s.pc.toNat + 1))) s
    exact ⟨_, step_of_exec hr (Nat.succ_le_succ hp) ht⟩

/-- Settles O13: `RET` and `CALL` by the two cases of the stack, the four memory instructions by the
two cases of their guarded access; the status of no other instruction's answer is written. -/
theorem faultsAreTheListed : Obligations.FaultsAreTheListed := by
  intro i s t hr h
  cases i with
  | ret =>
    rcases s.stack.eq_nil_or_concat' with hs | ⟨rest, a, hs⟩
    · cases (exec_ret_of_empty hs).symm.trans h
      exact .inr (.inl ⟨rfl, hs, rfl⟩)
    · cases (exec_ret_of_append hs).symm.trans h
      exact .inl hr
  | call nnn =>
    by_cases hfull : s.stackDepth = some s.stack.length
    · cases (exec_call_of_full nnn hfull).symm.trans h
      exact .inr (.inr (.inl ⟨⟨nnn, rfl⟩, hfull, rfl⟩))
    · cases (exec_call_of_notFull nnn hfull).symm.trans h
      exact .inl hr
  | drw x y n =>
    obtain rfl := Host.Outcome.next.inj h
    refine (running_or_outOfRange_of_touching hr (drawSprite_status s _ _ n)).imp_right
      fun ⟨hn, hout, ht⟩ => .inr (.inr ⟨.inl ⟨x, y, n, rfl, ?_, by omega⟩, ht⟩)
    rintro rfl
    exact absurd hn (Nat.lt_irrefl 0)
  | bcd x =>
    obtain rfl := Host.Outcome.next.inj h
    exact (running_or_outOfRange_of_touching hr rfl).imp_right fun ⟨_, hout, ht⟩ =>
      .inr (.inr ⟨.inr (.inl ⟨x, rfl, Nat.lt_of_succ_lt_succ hout⟩), ht⟩)
  | stm x =>
    obtain rfl := Host.Outcome.next.inj h
    exact (running_or_outOfRange_of_touching hr rfl).imp_right fun ⟨_, hout, ht⟩ =>
      .inr (.inr ⟨.inr (.inr (.inl ⟨x, rfl, Nat.lt_of_succ_lt_succ hout⟩)), ht⟩)
  | ldm x =>
    obtain rfl := Host.Outcome.next.inj h
    exact (running_or_outOfRange_of_touching hr (writeRegs_status s _ _)).imp_right
      fun ⟨_, hout, ht⟩ =>
        .inr (.inr ⟨.inr (.inr (.inr ⟨x, rfl, Nat.lt_of_succ_lt_succ hout⟩)), ht⟩)
  | _ =>
    obtain rfl := Host.Outcome.next.inj h
    exact .inl hr

/-- The pump answers running or stopped, so a step never ends faulted through it (R106). -/
theorem pump_status_ne_faulted (t : State) (c : Cause) : t.pump.status ≠ .faulted c := by
  rw [pump_status]
  split <;> nofun

/-- A step's end that is faulted was faulted by the handler, and the pump has not run (R204). -/
theorem endStep_eq_of_faulted {t : State} {c : Cause} (h : t.endStep.status = .faulted c) :
    t.endStep = t := by
  rcases endStep_cases t with e | ⟨-, e⟩
  · exact e
  · exact absurd (e ▸ h) (pump_status_ne_faulted t c)

/-- A running machine's handler that ends faulted has done nothing but raise the fault (R204). -/
theorem exec_eq_faultedWith {i : Instr} {s t : State} {c : Cause} (hr : s.status = .running)
    (h : exec i s = .next t) (ht : t.status = .faulted c) : ∃ info, t = s.faultedWith c info := by
  cases effect_of_exec h with
  | faults d info _ => cases ht; exact ⟨info, raise_eq_faultedWith s _ _⟩
  | completes hu => cases (hu.status_eq.trans hr).symm.trans ht

/-- Settles O14: the fault is the fetch's or the handler's, and the end of the step adds nothing. -/
theorem faultEntryIsPrecise : Obligations.FaultEntryIsPrecise := by
  intro s t c h ht
  refine ⟨?_, step_of_faulted ht⟩
  obtain ⟨hr, ⟨-, rfl⟩ | ⟨-, u, hu, rfl⟩⟩ := step_cases h
  · cases ht
    exact ⟨_, raise_eq_faultedWith s _ _⟩
  · have he := endStep_eq_of_faulted ht
    rw [he] at ht ⊢
    exact exec_eq_faultedWith hr hu ht

end Sys2Proof.Machine

namespace Sys2Proof.Machine

/-! ## The invariant after construction (R230, R232) -/

section
variable {font : Vector Byte 80} {rom : List Byte} {flag : RegIx} {depth : Option Nat}

/-- Construction answers a machine only when the ROM fits (R71, R222). -/
theorem fits_of_construct {t : State} (h : construct font rom flag depth = .next t) :
    rom.length ≤ 3584 := by
  by_contra hlong
  cases (longRomIsRefused font rom flag depth (Nat.lt_of_not_le hlong)).symm.trans h

/-- The glyphs end at 79 and a ROM that fits ends at 4095 or below, so both blocks are stored in
range. -/
theorem memory_wf_constructed (hrom : rom.length ≤ 3584) :
    (State.constructed font rom flag depth).memory.wf = true := by
  have hglyphs : blockInRange 0 font.toList.length = true := by
    rw [Vector.length_toList]; rfl
  have hprogram : blockInRange Config.romBase rom.length = true := by
    rw [blockInRange_iff, Config.romBase]; omega
  exact Memory.wf_store hprogram (Memory.wf_store hglyphs resetHasInvariant.memory_wf)

/-- Construction leaves the stack empty, `pc` at 512 and no fault record, as reset does, so only
memory and the depth are new. -/
theorem State.Inv.constructed (hrom : rom.length ≤ 3584) :
    (State.constructed font rom flag depth).Inv where
  memory_wf := memory_wf_constructed hrom
  record := resetHasInvariant.record
  depth d _ := Nat.zero_le d
  entries := resetHasInvariant.entries
  pc_bound := resetHasInvariant.pc_bound

end

/-- Settles O17: the machine is the constructed one, and its ROM fits. -/
theorem constructedMachineHasInvariant : Obligations.ConstructedMachineHasInvariant := by
  intro font rom flag depth t h
  rw [eq_constructed_of_construct h]
  exact .constructed (fits_of_construct h)

end Sys2Proof.Machine
